-- ==== Sys2Proof/Word.lean ====
section
/-! DEFINITION. The byte, the unit in which every frame, word, record and stored entry of the IB820 is laid out
(spec 00 section 5, 01 section 1.1, 02 section 2.1). Quantities (volumes, flows, counts, times) are natural numbers
or integers, since all arithmetic of the part is integer arithmetic (spec 00 section 5). -/

namespace Sys2Proof

/-- One byte; bit 0 is its least significant bit. -/
abbrev Byte := BitVec 8

end Sys2Proof
end

