-- ==== Sys2Proof/Syntax.lean ====
section
/-! DEFINITION. The commands of the part: one constructor for each row of spec/opcode_table.json, in the table's order.
The part decodes no words; each constructor is an event at one of its links, lines, timers or at its nonvolatile array. -/

namespace Sys2Proof

/-- The two positions of an arm's streams, meters and valves (spec 03, opening). -/
inductive StreamPos where
  | wild
  | ctrl
  deriving DecidableEq, Repr

/-- One command. Request commands carry the arm field and the payload of the request record (spec 01 section 1.1). -/
inductive Instr where
  /-- Supply comes up; the whole part resets (R16). -/
  | powerUp
  /-- The RST line resets the whole part (R16). -/
  | rst
  /-- A downstream rack frame has arrived, `elapsedUs` microseconds after the last timed event (R1). -/
  | rackFrameReceived (elapsedUs : Nat) (frame : List Byte)
  /-- 1.5 nominal periods have passed in source RACK without an accepted frame (R5). -/
  | timebaseRackTimeout
  /-- One nominal period has passed in source INTERNAL since the last period event (R5). -/
  | timebaseInternalPeriod
  /-- The silence count reaches the link loss limit (R9, R10). -/
  | linkLoss
  /-- The next answer window closes; `word` is what was received in it (R21). -/
  | answerWindowClose (word : List Byte)
  /-- A word arrives after its window has closed (R21). -/
  | lateWordDrop (word : List Byte)
  /-- The consecutive-invalid count of an UP slot reaches 25 (R26). -/
  | slotLost (slot : Fin 64)
  /-- The trunk silence count reaches 25 while UP (R27). -/
  | trunkDown
  /-- The echo test ends (R38). -/
  | testEnd
  /-- A lane's start window expires (R84). -/
  | startWindowExpiry (lane : Fin 4)
  /-- A meter's temperature age is at the hold limit at its settlement (R51). -/
  | tempLost (arm : Fin 8) (pos : StreamPos)
  /-- The out-of-band count reaches the persistence (R113). -/
  | ratioFault (arm : Fin 8)
  /-- An outstanding shot's age reaches 100 (R125). -/
  | shotTimeout (arm : Fin 8) (entry : Fin 4)
  /-- The hold timer reaches the hold limit (R92). -/
  | holdTimeout (arm : Fin 8)
  /-- The zero count reaches 20 (R90, R98). -/
  | armSettled (arm : Fin 8)
  /-- The settle age reaches the settle limit (R98). -/
  | settleLimit (arm : Fin 8)
  /-- The totalizer save under way completes (R143). -/
  | saveComplete (success : Bool)
  /-- The commit under way completes (R153). -/
  | commitComplete (success : Bool)
  /-- The PERMIT line of an arm takes a level (R94). -/
  | permitLineChange (arm : Fin 8) (active : Bool)
  /-- The ESTOP line takes a level (R94). -/
  | estopChange (active : Bool)
  /-- The CERT switch takes a position (R155). -/
  | certChange (unlocked : Bool)
  /-- Request 0x01 (R80). -/
  | authorize (arm : Byte) (payload : List Byte)
  /-- Request 0x02 (R81). -/
  | start (arm : Byte) (payload : List Byte)
  /-- Request 0x03 (R85). -/
  | cancel (arm : Byte) (payload : List Byte)
  /-- Request 0x04 (R101). -/
  | clearFault (arm : Byte) (payload : List Byte)
  /-- Request 0x05 (R141). -/
  | getSense (arm : Byte) (payload : List Byte)
  /-- Request 0x06 (R138). -/
  | readRecord (arm : Byte) (payload : List Byte)
  /-- Request 0x07 (R142). -/
  | readTotals (arm : Byte) (payload : List Byte)
  /-- Request 0x08 (R39). -/
  | readCounters (arm : Byte) (payload : List Byte)
  /-- Request 0x0F (R36). -/
  | trunkTest (arm : Byte) (payload : List Byte)
  /-- Request 0x09 (R149). -/
  | storeEnable (arm : Byte) (payload : List Byte)
  /-- Request 0x0A (R149). -/
  | storeDisable (arm : Byte) (payload : List Byte)
  /-- Request 0x0B (R150). -/
  | store (arm : Byte) (payload : List Byte)
  /-- Request 0x0C (R158). -/
  | readTable (arm : Byte) (payload : List Byte)
  /-- Request 0x0D (R158). -/
  | readStoreStatus (arm : Byte) (payload : List Byte)
  /-- Request 0x10 (R159). -/
  | resetPrepare (arm : Byte) (payload : List Byte)
  /-- Request 0x11 (R159). -/
  | resetDevice (arm : Byte) (payload : List Byte)
  /-- The frame carrying an accepted RESET_DEVICE response has been sent (R159). -/
  | deviceReset
  /-- Request 0x0E (R163). -/
  | service (arm : Byte) (payload : List Byte)
  /-- The reply age reaches 100 (R166). -/
  | serviceTimeout (arm : Fin 8)
  /-- Supply is lost (R153). -/
  | powerDown
  deriving DecidableEq, Repr

end Sys2Proof
end

