-- ==== Sys2Proof/Config.lean ====
section
/-! DEFINITION. What the spec leaves open, as constants without a body, and the fixed limits of the part. -/

namespace Sys2Proof.Config

/-- DESIGN CHOICE (log entry 3): which of the Arm Controller, the Ratio Controller and the Additive Scheduler acts first
at a shared arm frame closed event. The spec lets either order happen (R77, R95, R113, R120, R128). The argument is the
index of the choice (`State.choices`); the answer, modulo 6, names one of the six orders. -/
opaque blockOrder : Nat → Nat

/-- DESIGN CHOICE (log entry 8): what a field of the given width in bytes carries when its value does not fit. The spec
states no result there. The arguments are the width and the value. -/
opaque oversize : Nat → Nat → Nat

/-- Consecutive invalid outcomes that take an UP slot to LOST (R26), and the ceiling of the trunk silence count (R27). -/
def lossFrames : Nat := 25

/-- Frames after which an outstanding shot is MISSED (R125) and a reply is timed out (R166). -/
def answerFrames : Nat := 100

/-- Consecutive zero frames that settle an arm (R90). -/
def settledFrames : Nat := 20

/-- Ceiling of the temperature age (R50). -/
def ageCeiling : Nat := 3000

/-- Ceiling of the unauthorized-flow accumulator, in mL (R102). -/
def unauthorizedCeiling : Nat := 100000000

/-- Modulus of the frame counter (R17) and of the save sequence number (R143). -/
def counterModulus : Nat := 4294967296

/-- Controlled net volume, in mL, above which a straight load has uncommanded flow (R111). -/
def straightLimit : Nat := 2000

end Sys2Proof.Config
end

