-- ==== Sys2Proof/Machine/State.lean ====
section
/-! DEFINITION. The state of the part as plain data: every piece the spec gives it, the model's own three fields
(`pending`, `choices`, `nowUs`), and the state right after reset of a blank part. -/

namespace Sys2Proof.Machine

/-- The part has no fault: no command stops it (INVENTORY.md, Faults). No constructor, so no meaning can raise one. -/
inductive Fault where
  deriving DecidableEq, Repr

/-- Why the model would give a command no meaning. -/
inductive Refusal where
  /-- The command has no meaning yet. Raised by an arm of `exec` only; safe (the model stops). No arm raises it. -/
  | notModelled (mnemonic : String)
  deriving DecidableEq, Repr

/-! ## Codes -/

/-- The sense codes of spec 01 section 1.1. -/
inductive Sense where
  | none | badRequest | wrongState | armDisabled | keyRange | noRecipe | presetRange | recipeInvalid | slotMissing
  | slotConflict | curveInvalid | deviceAbsent | permitAbsent | runPermitAbsent | holdActive | estop | testActive
  | batchesOpen | notEnabled | storeBusy | isProtected | certLocked | badField | badMode | noAlias | serviceBusy
  | serviceTimeout | resetNotPrepared | unauthorizedFlow | normal | rackEnd | linkLost | permitLost | ratioFault
  | tempLost | deviceLost | deviceFault | trunkLost | pulseImplausible | additiveFail | holdTimeout
  | uncommandedFlow | valveLeak
  deriving DecidableEq, Repr

/-- The end causes of spec 05 section 5.6 and R98. -/
inductive EndCause where
  | normal | rackEnd | linkLost | permitLost | ratioFault | tempLost | deviceLost | deviceFault | trunkLost
  | pulseImplausible | additiveFail | holdTimeout | uncommandedFlow | valveLeak | estop
  deriving DecidableEq, Repr

/-- The request catalogue of spec 01 section 1.6. -/
inductive RequestCode where
  | authorize | start | cancel | clearFault | getSense | readRecord | readTotals | readCounters | storeEnable
  | storeDisable | store | readTable | readStoreStatus | service | trunkTest | resetPrepare | resetDevice
  deriving DecidableEq, Repr

/-! ## Tables (spec 04, 09, 10) -/

/-- One item of a recipe's additive list (R63); `stop` is policy STOP, otherwise CONTINUE. -/
structure AdditiveItem where
  injector : Fin 4
  dose : Nat
  interval : Nat
  tolerance : Nat
  stop : Bool
  deriving DecidableEq, Repr

/-- A recipe record (R62); `ethanolControlled` tells the controlled stream, ETHANOL or BASE. -/
structure Recipe where
  name : List Byte
  fraction : Nat
  ethanolControlled : Bool
  alphaEthanol : Nat
  alphaBase : Nat
  gain : Nat
  trimLimit : Nat
  band : Nat
  checkVolume : Nat
  persistence : Nat
  additives : List AdditiveItem
  deriving DecidableEq, Repr

/-- A point of a meter curve (R65). -/
structure CurvePoint where
  flow : Nat
  factor : Nat
  deriving DecidableEq, Repr

/-- The fields of an arm entry that a batch copies into its context (R66, R67, R76). -/
structure ArmSettings where
  lane : Fin 4
  wildMax : Nat
  ctrlMax : Nat
  lowRate : Nat
  highRate : Nat
  rampLimit : Nat
  lowStart : Nat
  topOff : Nat
  initialCloseAhead : Nat
  closeAheadMax : Nat
  overshootLimit : Nat
  deriving DecidableEq, Repr

/-- An arm-table entry (R66): the enabled mark, the metrological fields, and the settings. -/
structure ArmEntry where
  enabled : Bool
  wildK10 : Nat
  ctrlK10 : Nat
  wildCurve : Fin 16
  ctrlCurve : Fin 16
  settings : ArmSettings
  deriving DecidableEq, Repr

/-- Slot roles (spec 02 section 2.1). -/
inductive Role where
  | unused | wildMeter | ctrlMeter | wildValve | ctrlValve
  | inj (k : Fin 4)
  deriving DecidableEq, Repr

/-- An entry of the slot table (R71). -/
structure SlotEntry where
  arm : Fin 8
  role : Role
  deriving DecidableEq, Repr

/-- The device config record (R68). -/
structure DeviceConfig where
  periodMs : Nat
  slotCount : Nat
  linkLossLimit : Nat
  tempHoldLimit : Nat
  startWindow : Nat
  holdLimitS : Nat
  settleLimit : Nat
  unauthorizedL : Nat
  deriving DecidableEq, Repr

/-- Modes of the protection record (R155). -/
inductive ProtMode where
  | modeOpen | switched | lockedToRestart | permanent
  deriving DecidableEq, Repr

/-- The protection record (R154, R155); `top` is direction TOP. -/
structure Protection where
  range : Fin 8
  top : Bool
  complement : Bool
  mode : ProtMode
  deriving DecidableEq, Repr

/-- A working copy with its two flags (R146). -/
structure Entry (α : Type) where
  work : α
  differs : Bool
  invalid : Bool
  deriving DecidableEq, Repr

/-- The working copies of every table (R146, R161). A recipe slot that is EMPTY holds `none`; a curve that is EMPTY
holds no point; an alias that is empty holds `none`. -/
structure Tables where
  recipes : Vector (Entry (Option Recipe)) 64
  curves : Vector (Entry (List CurvePoint)) 16
  arms : Vector (Entry ArmEntry) 8
  slots : Entry (Vector SlotEntry 64)
  aliases : Vector (Entry (Vector (Option (Fin 64)) 8)) 8
  config : Entry DeviceConfig
  protection : Entry Protection
  deriving DecidableEq, Repr

/-- The content of one table entry with the entry it belongs to: what a STORE carries (R149). -/
inductive Content where
  | recipe (slot : Fin 64) (record : Option Recipe)
  | curve (index : Fin 16) (points : List CurvePoint)
  | armEntry (arm : Fin 8) (entry : ArmEntry)
  | slotTable (entries : Vector SlotEntry 64)
  | aliasTable (arm : Fin 8) (slots : Vector (Option (Fin 64)) 8)
  | config (record : DeviceConfig)
  | protection (record : Protection)
  deriving DecidableEq, Repr

/-- The name of one table entry, the unit of storing, loading and checking (spec 09, opening). -/
inductive EntryKey where
  | recipe (slot : Fin 64)
  | curve (index : Fin 16)
  | armEntry (arm : Fin 8)
  | slotTable
  | aliasTable (arm : Fin 8)
  | config
  | protection
  deriving DecidableEq, Repr

/-! ## The nonvolatile array (spec 09 section 9.1, 08 section 8.6) -/

/-- A nonvolatile table entry: never written, written (content and check word), or left failing its check (R146, R153). -/
inductive NvEntry where
  | unwritten
  | written (bytes : List Byte)
  | failing
  deriving DecidableEq, Repr

/-- The nonvolatile entries of the tables (R146). -/
structure NvTables where
  recipes : Vector NvEntry 64
  curves : Vector NvEntry 16
  arms : Vector NvEntry 8
  slots : NvEntry
  aliases : Vector NvEntry 8
  config : NvEntry
  protection : NvEntry
  deriving DecidableEq, Repr

/-- A pair of totalizers with their mL residues (R56). -/
structure MeterTotals where
  grossL : Nat
  grossMl : Nat
  netL : Nat
  netMl : Nat
  deriving DecidableEq, Repr

/-- What a totalizer save writes (R143). -/
structure SaveImage where
  seq : Nat
  wild : MeterTotals
  ctrl : MeterTotals
  deriving DecidableEq, Repr

/-- One of the two copies of a save entry (R143, R144). -/
inductive SaveCopy where
  | unwritten
  | failing
  | holds (image : SaveImage)
  deriving DecidableEq, Repr

/-- A save entry with its two copies (R143). -/
structure SaveEntry where
  copy0 : SaveCopy
  copy1 : SaveCopy
  deriving DecidableEq, Repr

/-- The nonvolatile array with the metrological change counter's cell (R157). -/
structure Nonvolatile where
  tables : NvTables
  saves : Vector SaveEntry 8
  metroCounter : Nat
  deriving DecidableEq, Repr

/-! ## The store engine and its controls (spec 09) -/

/-- The store write latch (R149). -/
inductive Latch where
  | clear | persist | working
  deriving DecidableEq, Repr

/-- Store status (R151, R153). -/
inductive StoreStatus where
  | idle | busy | failed
  deriving DecidableEq, Repr

/-- An operation that waits in the store engine's queue (R152). -/
inductive QueuedOp where
  | commit (content : Content)
  | save (arm : Fin 8)
  deriving DecidableEq, Repr

/-- The operation under way; a save has taken its values and its copy (R143). -/
inductive RunningOp where
  | commit (content : Content)
  | save (arm : Fin 8) (copy : Fin 2) (image : SaveImage)
  deriving DecidableEq, Repr

/-- The Table Store's own state beside the tables (R149 to R153, R159; the fault flag and the latest copies are those
of R143). -/
structure StoreCtl where
  latch : Latch
  status : StoreStatus
  saveFault : Bool
  underWay : Option RunningOp
  queue : List QueuedOp
  latest : Vector (Option (Fin 2)) 8
  prepared : Bool
  deriving DecidableEq, Repr

/-! ## Rack link (spec 01) -/

/-- Cause of the last RUN_PERMIT drop (R4). -/
inductive DropCause where
  | rack | link
  deriving DecidableEq, Repr

/-- The held cyclic levels of one arm (R4). -/
structure Levels where
  runPermit : Bool
  dropCause : DropCause
  hold : Bool
  deriving DecidableEq, Repr

/-- The last accepted frame (R1). -/
structure LastFrame where
  number : Byte
  atUs : Nat
  deriving DecidableEq, Repr

/-- An open assembly (R11): at most 243 bytes are stored, all are counted. -/
structure Assembly where
  buffer : List Byte
  count : Nat
  expected : Byte
  deriving DecidableEq, Repr

/-- The management transaction (R14). `thenReset` marks the response of an accepted RESET_DEVICE (R159). -/
inductive Transaction where
  | none
  | held (arm : Fin 8)
  | sending (bytes : List Byte) (sent : Nat) (thenReset : Bool)
  deriving DecidableEq, Repr

/-- The Rack Link Interface (R16). `upstream` is the last upstream frame sent; `resetDue` that it, or one before it,
carried an accepted RESET_DEVICE response (R159). -/
structure RackLink where
  up : Bool
  silence : Nat
  last : Option LastFrame
  levels : Vector Levels 8
  errors : Nat
  assembly : Option Assembly
  transaction : Transaction
  discard : Bool
  deviceSense : Sense
  upstream : List Byte
  resetDue : Bool
  deriving DecidableEq, Repr

/-- The timebase (R5); `periodMs` is the nominal period adopted at the last period event. -/
structure Timebase where
  internal : Bool
  lastEventUs : Nat
  periodMs : Nat
  deriving DecidableEq, Repr

/-! ## Field trunk (spec 02) -/

/-- Receive state of a slot (R25, R26). -/
structure SlotRx where
  toggle : Option Bool
  invalids : Nat
  up : Bool
  deriving DecidableEq, Repr

/-- Trunk state (R27). -/
inductive TrunkState where
  | down | up | test
  deriving DecidableEq, Repr

/-- Test state (R36). -/
inductive TestState where
  | none | running | complete
  deriving DecidableEq, Repr

/-- The echo test (R36 to R38). -/
structure EchoTest where
  state : TestState
  remaining : Nat
  framesRun : Nat
  errors : Nat
  deriving DecidableEq, Repr

/-- The Field Trunk Controller (R40). `slotCount`, `table` and `testFrame` are those the last frame adopted (R17);
`answering` and `nextWindow` tell which window closes next (R21). -/
structure Trunk where
  frameCounter : Nat
  slotCount : Nat
  table : Vector SlotEntry 64
  testFrame : Bool
  answering : Bool
  nextWindow : Nat
  validTaken : Bool
  testFailed : Bool
  slots : Vector SlotRx 64
  state : TrunkState
  silence : Nat
  crcErrors : Nat
  staleErrors : Nat
  test : EchoTest
  downstream : List Byte
  deriving DecidableEq, Repr

/-! ## Metering (spec 03) -/

/-- A meter (section 3.1). `window` holds the oldest entry first; `sample` is the indicated volume of the frame's
processed sample, if the current frame has one (R42, R90). -/
structure Meter where
  lastTotal : Option Nat
  lastFrame : Nat
  lost : Bool
  pulseRes : Nat
  grossRes : Nat
  netRes : Nat
  window : List Nat
  flow : Nat
  factor : Nat
  temp : Option Int
  age : Nat
  totals : MeterTotals
  settledFrame : Nat
  sample : Option Nat
  deriving DecidableEq, Repr

/-- The two meters of an arm. -/
structure MeterPair where
  wild : Meter
  ctrl : Meter
  deriving DecidableEq, Repr

/-! ## The batch (spec 05 to 08) -/

/-- Arm states (spec 05 section 5.1). -/
inductive ArmState where
  | idle | authorized | startPending | running | holding | held | closing | faulted
  deriving DecidableEq, Repr

/-- Phases of a RUNNING batch (R87). -/
inductive Phase where
  | none | startLow | high | topOff
  deriving DecidableEq, Repr

/-- The batch context (R76) with the close-ahead used (R100). -/
structure Context where
  recipe : Recipe
  slot : Fin 64
  settings : ArmSettings
  presetMl : Nat
  netBasis : Bool
  txid : Nat
  metro : Nat
  closeAhead : Nat
  deriving DecidableEq, Repr

/-- A stream account (R78) with the meter factor of its last increment set (R134). -/
structure Account where
  gross : Nat
  net : Nat
  weight : Int
  lastFactor : Nat
  deriving DecidableEq, Repr

/-- Mode of a Ratio Controller (R104). -/
inductive RatioMode where
  | none | ratio | straight
  deriving DecidableEq, Repr

/-- A Ratio Controller (spec 06 section 6.1). -/
structure RatioCtl where
  mode : RatioMode
  ctrlSet : Nat
  maxDev : Nat
  outCount : Nat
  limited : Bool
  deriving DecidableEq, Repr

/-- The toggles and busy mark of an injector (R118). -/
structure Injector where
  held : Bool
  ref : Bool
  busy : Bool
  deriving DecidableEq, Repr

/-- An outstanding shot (spec 07 section 7.1). -/
structure Shot where
  volume : Nat
  toggle : Bool
  age : Nat
  deriving DecidableEq, Repr

/-- State of an additive entry (spec 07 section 7.1). -/
inductive EntryState where
  | active | dropped | failed
  deriving DecidableEq, Repr

/-- An additive entry of the open batch (R117). -/
structure AdditiveEntry where
  item : AdditiveItem
  state : EntryState
  nextPoint : Nat
  target : Nat
  injected : Nat
  shot : Option Shot
  bad : Nat
  good : Nat
  short : Nat
  long : Nat
  missed : Nat
  deriving DecidableEq, Repr

/-- Record states (spec 08 section 8.1). -/
inductive RecordState where
  | absent | authorized | started | closing | complete
  deriving DecidableEq, Repr

/-- Ratio status of a record (R115). -/
inductive RatioStatus where
  | absent | notChecked | inBand | outOfBand
  deriving DecidableEq, Repr

/-- Outcome of an additive item (R130). -/
inductive AdditiveOutcome where
  | absent | ok | outOfTol | failed
  deriving DecidableEq, Repr

/-- A stream group of a record (spec 08 section 8.1). -/
structure StreamRecord where
  ethanol : Bool
  gross : Nat
  net : Nat
  avgTemp : Option Int
  k10 : Nat
  curve : Fin 16
  factor : Nat
  deriving DecidableEq, Repr

/-- An additive item of a record (spec 08 section 8.1). -/
structure AdditiveRecord where
  injector : Fin 4
  target : Nat
  injected : Nat
  good : Nat
  short : Nat
  long : Nat
  missed : Nat
  outcome : AdditiveOutcome
  deriving DecidableEq, Repr

/-- A batch record with every field of spec 08 section 8.1. -/
structure Record where
  state : RecordState
  arm : Fin 8
  batchNumber : Nat
  txid : Nat
  slot : Fin 64
  name : List Byte
  presetMl : Nat
  netBasis : Bool
  startFrame : Nat
  endFrame : Nat
  wild : StreamRecord
  ctrl : StreamRecord
  finalFraction : Option Nat
  ratioStatus : RatioStatus
  maxDev : Nat
  remaining : Nat
  overshoot : Nat
  overshootFlag : Bool
  closeAhead : Nat
  overrun : Nat
  holdCount : Nat
  endReason : Option EndCause
  secondary : List EndCause
  metro : Nat
  additives : List AdditiveRecord
  deriving DecidableEq, Repr

/-- The current record's own fields (R133); every live field is read from its owner (R134). -/
structure CurrentRecord where
  state : RecordState
  batchNumber : Nat
  startFrame : Nat
  wildK10 : Nat
  ctrlK10 : Nat
  wildCurve : Fin 16
  ctrlCurve : Fin 16
  deriving DecidableEq, Repr

/-- One arm: its Arm Controller (section 5.1), Ratio Controller and Additive Scheduler. -/
structure Arm where
  state : ArmState
  phase : Phase
  ctx : Option Context
  wild : Account
  ctrl : Account
  deliveredAtClose : Nat
  batchNumber : Nat
  startFrame : Nat
  holdCount : Nat
  holdTimer : Nat
  zeroCount : Nat
  settleAge : Nat
  endReason : Option EndCause
  secondary : List EndCause
  ring : List Nat
  unauthorized : Nat
  current : Option CurrentRecord
  last : Option Record
  toggle : Bool
  sense : Sense
  wildSet : Nat
  ratio : RatioCtl
  injectors : Vector Injector 4
  entries : List AdditiveEntry
  additiveFault : Bool
  deriving DecidableEq, Repr

/-- A lane's start window (R84). -/
structure StartWindow where
  isOpen : Bool
  remaining : Nat
  pending : List (Fin 8)
  deriving DecidableEq, Repr

/-! ## Field device service (spec 10) -/

/-- States of a transfer (R162). -/
inductive TransferPhase where
  | idle | request | reply
  deriving DecidableEq, Repr

/-- A transfer (R162). `classSent` tells that the word with START has gone (R164). -/
structure Transfer where
  phase : TransferPhase
  slot : Fin 64
  write : Bool
  request : List Byte
  classSent : Bool
  next : Nat
  reply : List Byte
  count : Nat
  truncated : Bool
  age : Nat
  wanted : Bool
  deriving DecidableEq, Repr

/-- The input lines (spec 00 section 4). -/
structure Lines where
  permit : Vector Bool 8
  estop : Bool
  certUnlocked : Bool
  deriving DecidableEq, Repr

/-- The whole part. `pending` is the queue of commands that wait, first in, first out; `choices` counts the free
choices taken (log entry 3); `nowUs` is the moment in microseconds (log entry 4). -/
structure State where
  powered : Bool
  nowUs : Nat
  lines : Lines
  rack : RackLink
  timebase : Timebase
  trunk : Trunk
  meters : Vector MeterPair 8
  arms : Vector Arm 8
  windows : Vector StartWindow 4
  transfers : Vector Transfer 8
  tables : Tables
  store : StoreCtl
  nv : Nonvolatile
  choices : Nat
  pending : List Instr
  deriving DecidableEq, Repr

/-! ## Values after reset -/

/-- The defaults of R68. -/
def DeviceConfig.defaults : DeviceConfig :=
  { periodMs := 10, slotCount := 64, linkLossLimit := 50, tempHoldLimit := 300, startWindow := 200,
    holdLimitS := 1800, settleLimit := 500, unauthorizedL := 5 }

/-- The cleared arm entry of R66. -/
def ArmEntry.cleared : ArmEntry :=
  { enabled := false, wildK10 := 100, ctrlK10 := 100, wildCurve := 0, ctrlCurve := 0,
    settings := { lane := 0, wildMax := 0, ctrlMax := 0, lowRate := 0, highRate := 0, rampLimit := 1, lowStart := 0,
                  topOff := 0, initialCloseAhead := 0, closeAheadMax := 0, overshootLimit := 0 } }

/-- A slot table with every slot UNUSED and arm 0 (R147). -/
def blankSlotTable : Vector SlotEntry 64 := Vector.replicate 64 { arm := 0, role := .unused }

/-- An alias table with every alias empty (R147). -/
def blankAliasTable : Vector (Option (Fin 64)) 8 := Vector.replicate 8 none

/-- The blank protection record (R147). -/
def Protection.blank : Protection := { range := 0, top := false, complement := false, mode := .modeOpen }

/-- The fallback protection record (R147). -/
def Protection.fallback : Protection := { range := 7, top := false, complement := false, mode := .switched }

/-- A working copy just loaded, both flags clear (R147). -/
def Entry.loaded {α : Type} (work : α) : Entry α := { work := work, differs := false, invalid := false }

/-- The working copies a blank part loads (R147). -/
def Tables.blank : Tables :=
  { recipes := Vector.replicate 64 (Entry.loaded none), curves := Vector.replicate 16 (Entry.loaded []),
    arms := Vector.replicate 8 (Entry.loaded ArmEntry.cleared), slots := Entry.loaded blankSlotTable,
    aliases := Vector.replicate 8 (Entry.loaded blankAliasTable), config := Entry.loaded DeviceConfig.defaults,
    protection := Entry.loaded Protection.blank }

/-- The array of a blank part (R144, R147, R157). DESIGN CHOICE that State.reset is a blank part (log entry 6). -/
def Nonvolatile.blank : Nonvolatile :=
  { tables :=
      { recipes := Vector.replicate 64 .unwritten, curves := Vector.replicate 16 .unwritten,
        arms := Vector.replicate 8 .unwritten, slots := .unwritten, aliases := Vector.replicate 8 .unwritten,
        config := .unwritten, protection := .unwritten },
    saves := Vector.replicate 8 { copy0 := .unwritten, copy1 := .unwritten },
    metroCounter := 0 }

/-- Totalizers at 0 (R144). -/
def MeterTotals.zero : MeterTotals := { grossL := 0, grossMl := 0, netL := 0, netMl := 0 }

/-- A meter after reset with the totalizers restored to it (R60). -/
def Meter.afterReset (totals : MeterTotals) : Meter :=
  { lastTotal := none, lastFrame := 0, lost := false, pulseRes := 0, grossRes := 0, netRes := 0,
    window := [0, 0, 0, 0, 0, 0, 0, 0], flow := 0, factor := 100000, temp := none, age := 0, totals := totals,
    settledFrame := 0, sample := none }

/-- A zeroed stream account (R103). DESIGN CHOICE (log entry 24): the spec gives the last meter factor no value before the
first AUTHORIZE, and the model holds 0. -/
def Account.zero : Account := { gross := 0, net := 0, weight := 0, lastFactor := 0 }

/-- An arm after reset (R103, R116, R132, R145). -/
def Arm.afterReset : Arm :=
  { state := .idle, phase := .none, ctx := none, wild := Account.zero, ctrl := Account.zero, deliveredAtClose := 0,
    batchNumber := 0, startFrame := 0, holdCount := 0, holdTimer := 0, zeroCount := 0, settleAge := 0,
    endReason := none, secondary := [], ring := [], unauthorized := 0, current := none, last := none, toggle := false,
    sense := .none, wildSet := 0,
    ratio := { mode := .none, ctrlSet := 0, maxDev := 0, outCount := 0, limited := false },
    injectors := Vector.replicate 4 { held := false, ref := false, busy := false }, entries := [],
    additiveFault := false }

/-- A transfer IDLE with its state released (R168). DESIGN CHOICE (log entry 27): the spec gives a transfer that is not in
flight no slot, class, bytes, counts, flags or age; the model fills them with 0, READ, nothing and clear. -/
def Transfer.released : Transfer :=
  { phase := .idle, slot := 0, write := false, request := [], classSent := false, next := 0, reply := [], count := 0,
    truncated := false, age := 0, wanted := false }

/-- A start window closed and empty (R84, R103). DESIGN CHOICE (log entry 27): the spec gives a closed window no frames
remaining; the model holds 0. -/
def StartWindow.closed : StartWindow := { isOpen := false, remaining := 0, pending := [] }

/-- The Rack Link Interface after reset (R16, R145). -/
def RackLink.afterReset : RackLink :=
  { up := false, silence := 0, last := none,
    levels := Vector.replicate 8 { runPermit := false, dropCause := .rack, hold := false }, errors := 0,
    assembly := none, transaction := .none, discard := false, deviceSense := .none, upstream := [],
    resetDue := false }

/-- The Field Trunk Controller after reset, with the slot count and slot table reloaded (R40). -/
def Trunk.afterReset (slotCount : Nat) (table : Vector SlotEntry 64) : Trunk :=
  { frameCounter := 0, slotCount := slotCount, table := table, testFrame := false, answering := false, nextWindow := 0,
    validTaken := false, testFailed := false,
    slots := Vector.replicate 64 { toggle := none, invalids := Config.lossFrames, up := false }, state := .down,
    silence := 0, crcErrors := 0, staleErrors := 0,
    test := { state := .none, remaining := 0, framesRun := 0, errors := 0 }, downstream := [] }

/-- The Table Store's controls after reset, with the fault flag and the latest copies that the load found (R144, R160). -/
def StoreCtl.afterReset (saveFault : Bool) (latest : Vector (Option (Fin 2)) 8) : StoreCtl :=
  { latch := .clear, status := .idle, saveFault := saveFault, underWay := none, queue := [], latest := latest,
    prepared := false }

/-- The lines as the model takes them at State.reset. DESIGN CHOICE (log entry 5). -/
def Lines.initial : Lines := { permit := Vector.replicate 8 false, estop := false, certUnlocked := false }

/-- A blank part right after power-up (R16, R40, R60, R103, R116, R132, R145, R160, R168). -/
def State.reset : State :=
  { powered := true, nowUs := 0, lines := Lines.initial, rack := RackLink.afterReset,
    timebase := { internal := true, lastEventUs := 0, periodMs := DeviceConfig.defaults.periodMs },
    trunk := Trunk.afterReset DeviceConfig.defaults.slotCount blankSlotTable,
    meters := Vector.replicate 8
      { wild := Meter.afterReset MeterTotals.zero, ctrl := Meter.afterReset MeterTotals.zero },
    arms := Vector.replicate 8 Arm.afterReset, windows := Vector.replicate 4 StartWindow.closed,
    transfers := Vector.replicate 8 Transfer.released, tables := Tables.blank,
    store := StoreCtl.afterReset false (Vector.replicate 8 none), nv := Nonvolatile.blank, choices := 0,
    pending := [] }

end Sys2Proof.Machine
end

