-- ==== Sys2Proof/Machine/Flags.lean ====
section
/-! DEFINITION. The check words (R2, R22), the codes of states and reasons, the packed flag bytes, and the saturating
and wrapping counters. -/

namespace Sys2Proof.Machine

/-! ## Check words -/

/-- One bit through the 16-bit check register, generator x^16 + x^15 + x^2 + 1 (R2). -/
def crc16Bit (reg : BitVec 16) (bit : Bool) : BitVec 16 :=
  if reg.msb != bit then (reg <<< 1) ^^^ 0x8005#16 else reg <<< 1

/-- One byte through the 16-bit check register, most significant bit first (R2). -/
def crc16Byte (reg : BitVec 16) (b : Byte) : BitVec 16 :=
  [7, 6, 5, 4, 3, 2, 1, 0].foldl (fun r i => crc16Bit r (b.getLsbD i)) reg

/-- The check value of R2 over some bytes: all ones at the start, not inverted at the end. -/
def crc16 (bytes : List Byte) : BitVec 16 := bytes.foldl crc16Byte 0xFFFF#16

/-- The two check bytes, most significant first (R2). -/
def checkBytes (bytes : List Byte) : List Byte :=
  [(crc16 bytes).extractLsb' 8 8, (crc16 bytes).extractLsb' 0 8]

/-- One bit through the 8-bit check register, generator x^8 + x^2 + x + 1 (R22). -/
def crc8Bit (reg : BitVec 8) (bit : Bool) : BitVec 8 :=
  if reg.msb != bit then (reg <<< 1) ^^^ 0x07#8 else reg <<< 1

/-- One byte through the 8-bit check register, most significant bit first (R22). -/
def crc8Byte (reg : BitVec 8) (b : Byte) : BitVec 8 :=
  [7, 6, 5, 4, 3, 2, 1, 0].foldl (fun r i => crc8Bit r (b.getLsbD i)) reg

/-- The CRC-8 of R22. -/
def crc8 (bytes : List Byte) : BitVec 8 := bytes.foldl crc8Byte 0#8

/-! ## Counters -/

/-- A count that rises by one and stays at its ceiling once there (spec 00 section 5, "saturating"). -/
def satSucc (ceiling n : Nat) : Nat := if n < ceiling then n + 1 else ceiling

/-- The frame counter raised by one, wrapping to 0 (R17). -/
def nextFrame (n : Nat) : Nat := (n + 1) % Config.counterModulus

/-- The batch number raised by one, wrapping to 1 (R82). -/
def nextBatch (n : Nat) : Nat := if n < 65535 then n + 1 else 1

/-! ## Codes -/

/-- Sense code values (spec 01 section 1.1). -/
def Sense.code : Sense → Nat
  | .none => 0 | .badRequest => 1 | .wrongState => 2 | .armDisabled => 3 | .keyRange => 4 | .noRecipe => 5
  | .presetRange => 6 | .recipeInvalid => 7 | .slotMissing => 8 | .slotConflict => 9 | .curveInvalid => 10
  | .deviceAbsent => 11 | .permitAbsent => 12 | .runPermitAbsent => 13 | .holdActive => 14 | .estop => 15
  | .testActive => 16 | .batchesOpen => 17 | .notEnabled => 18 | .storeBusy => 19 | .isProtected => 20
  | .certLocked => 21 | .badField => 22 | .badMode => 23 | .noAlias => 24 | .serviceBusy => 25
  | .serviceTimeout => 26 | .resetNotPrepared => 27 | .unauthorizedFlow => 28 | .normal => 32 | .rackEnd => 33
  | .linkLost => 34 | .permitLost => 35 | .ratioFault => 36 | .tempLost => 37 | .deviceLost => 38
  | .deviceFault => 39 | .trunkLost => 40 | .pulseImplausible => 41 | .additiveFail => 42 | .holdTimeout => 43
  | .uncommandedFlow => 44 | .valveLeak => 45

/-- The sense code of an end cause (spec 01 section 1.1; "ESTOP is one code"). -/
def EndCause.sense : EndCause → Sense
  | .normal => .normal | .rackEnd => .rackEnd | .linkLost => .linkLost | .permitLost => .permitLost
  | .ratioFault => .ratioFault | .tempLost => .tempLost | .deviceLost => .deviceLost | .deviceFault => .deviceFault
  | .trunkLost => .trunkLost | .pulseImplausible => .pulseImplausible | .additiveFail => .additiveFail
  | .holdTimeout => .holdTimeout | .uncommandedFlow => .uncommandedFlow | .valveLeak => .valveLeak | .estop => .estop

/-- NORMAL, RACK_END and LINK_LOST are non-latching; every other cause latches (spec 05 section 5.6). -/
def EndCause.latching : EndCause → Bool
  | .normal | .rackEnd | .linkLost => false
  | _ => true

/-- The bit of a member of the secondary causes: code - 32, and bit 15 for ESTOP (spec 08 section 8.1). -/
def EndCause.bit (c : EndCause) : Nat := if c = .estop then 15 else c.sense.code - 32

/-- The code of a request (spec 01 section 1.6). -/
def RequestCode.code : RequestCode → Nat
  | .authorize => 0x01 | .start => 0x02 | .cancel => 0x03 | .clearFault => 0x04 | .getSense => 0x05
  | .readRecord => 0x06 | .readTotals => 0x07 | .readCounters => 0x08 | .storeEnable => 0x09 | .storeDisable => 0x0A
  | .store => 0x0B | .readTable => 0x0C | .readStoreStatus => 0x0D | .service => 0x0E | .trunkTest => 0x0F
  | .resetPrepare => 0x10 | .resetDevice => 0x11

/-- Every request of the catalogue. -/
def RequestCode.all : List RequestCode :=
  [.authorize, .start, .cancel, .clearFault, .getSense, .readRecord, .readTotals, .readCounters, .storeEnable,
   .storeDisable, .store, .readTable, .readStoreStatus, .service, .trunkTest, .resetPrepare, .resetDevice]

/-- The request a code names, if it is in the catalogue (R13). -/
def RequestCode.ofCode (n : Nat) : Option RequestCode := RequestCode.all.find? (fun c => c.code == n)

/-- Arm state codes (spec 01 section 1.1, arm process image). -/
def ArmState.code : ArmState → Nat
  | .idle => 0 | .authorized => 1 | .startPending => 2 | .running => 3 | .holding => 4 | .held => 5 | .closing => 6
  | .faulted => 7

/-- Phase codes (spec 01 section 1.1). -/
def Phase.code : Phase → Nat
  | .none => 0 | .startLow => 1 | .high => 2 | .topOff => 3

/-- Trunk state codes (spec 01 section 1.1). -/
def TrunkState.code : TrunkState → Nat
  | .down => 0 | .up => 1 | .test => 2

/-- Test state codes (spec 02 section 2.1). -/
def TestState.code : TestState → Nat
  | .none => 0 | .running => 1 | .complete => 2

/-- Store status codes (spec 01 section 1.1). -/
def StoreStatus.code : StoreStatus → Nat
  | .idle => 0 | .busy => 1 | .failed => 2

/-- Latch codes (R158). -/
def Latch.code : Latch → Nat
  | .clear => 0 | .persist => 1 | .working => 2

/-- Protection mode codes (R149, section 9.2). -/
def ProtMode.code : ProtMode → Nat
  | .modeOpen => 0 | .switched => 1 | .lockedToRestart => 2 | .permanent => 3

/-- Role codes (spec 02 section 2.1). -/
def Role.code : Role → Nat
  | .unused => 0 | .wildMeter => 1 | .ctrlMeter => 2 | .wildValve => 3 | .ctrlValve => 4 | .inj k => 5 + k.val

/-- Record state codes (spec 08 section 8.1). -/
def RecordState.code : RecordState → Nat
  | .absent => 0 | .authorized => 1 | .started => 2 | .closing => 3 | .complete => 4

/-- Ratio status codes (spec 08 section 8.1). -/
def RatioStatus.code : RatioStatus → Nat
  | .absent => 0 | .notChecked => 1 | .inBand => 2 | .outOfBand => 3

/-- Additive outcome codes (spec 08 section 8.1). -/
def AdditiveOutcome.code : AdditiveOutcome → Nat
  | .absent => 0 | .ok => 1 | .outOfTol => 2 | .failed => 3

/-! ## Flag bytes -/

/-- The byte with the given bits, bit 0 first. -/
def packBits : List Bool → Nat
  | [] => 0
  | b :: rest => (if b then 1 else 0) + 2 * packBits rest

/-- The service flags of a slot word: START, END and ACTIVE at bits 1, 2 and 3 (spec 02 section 2.1). -/
structure ServiceFlags where
  start : Bool
  fin : Bool
  active : Bool
  deriving DecidableEq, Repr

/-- No service flag set (R20). -/
def ServiceFlags.clear : ServiceFlags := { start := false, fin := false, active := false }

/-- The flags byte of a downstream slot word (spec 02 section 2.1). -/
def downFlags (toggle : Bool) (f : ServiceFlags) : Nat := packBits [toggle, f.start, f.fin, f.active]

/-- The flags byte of a response record (spec 01 section 1.1). -/
def responseFlags (discarded truncated : Bool) : Nat := packBits [discarded, truncated]

/-- The flags byte of a trunk frame header (spec 02 section 2.1). -/
def headerFlags (test : Bool) (slotCount : Nat) : Nat :=
  (if test then 1 else 0) + 2 * (if slotCount = 16 then 0 else if slotCount = 32 then 1 else 2)

end Sys2Proof.Machine
end

