-- ==== Sys2Proof/Machine/Operands.lean ====
section
/-! DEFINITION. The byte layouts: fields of a payload, the downstream rack frame (R1), the upstream slot word
(spec 02 section 2.1), the request record (R13), the payloads of the requests, and the encoding of a table entry's
content (R149), both ways. -/

namespace Sys2Proof.Machine

/-! ## Fields, most significant byte first (spec 00 section 5) -/

/-- The low `width` bytes of a value, most significant byte first. -/
def beBytes : Nat → Nat → List Byte
  | 0, _ => []
  | w + 1, v => BitVec.ofNat 8 (v / 256 ^ w) :: beBytes w v

/-- A field of the given width. DESIGN CHOICE (log entry 8): a value too large for the width leaves the field's
bytes free. -/
def field (width v : Nat) : List Byte :=
  if v < 256 ^ width then beBytes width v else beBytes width (Config.oversize width v)

/-- A signed field of two bytes in two's complement. -/
def signedField (v : Int) : List Byte := beBytes 2 (v % 65536).toNat

/-- The number some bytes carry. -/
def readBe (bytes : List Byte) : Nat := bytes.foldl (fun acc b => acc * 256 + b.toNat) 0

/-- The byte at an offset, as a number; 0 beyond the end. -/
def byteAt (p : List Byte) (offset : Nat) : Nat := (p.getD offset 0).toNat

/-- The bytes of a field. -/
def slice (p : List Byte) (offset width : Nat) : List Byte := (p.drop offset).take width

/-- The number a field carries. -/
def numAt (p : List Byte) (offset width : Nat) : Nat := readBe (slice p offset width)

/-- A 16-bit value read as two's complement. -/
def signed16 (n : Nat) : Int := if n < 32768 then (n : Int) else (n : Int) - 65536

/-- A flag or code byte that may be 0 or 1. -/
def boolOf (n : Nat) : Option Bool := if n = 0 then some false else if n = 1 then some true else none

/-- An index below a bound. -/
def finOf (bound n : Nat) : Option (Fin bound) := if h : n < bound then some ⟨n, h⟩ else none

/-- A flag as a number. -/
def boolNum (b : Bool) : Nat := if b then 1 else 0

/-- All items, if there is no missing one among them. -/
def collect {α : Type} : List (Option α) → Option (List α)
  | [] => some []
  | none :: _ => none
  | some x :: rest => (collect rest).map (x :: ·)

/-! ## Downstream rack frame -/

/-- Segment kinds a downstream frame may carry (spec 01 section 1.1). -/
inductive SegmentKind where
  | none | first | middle | last | only
  deriving DecidableEq, Repr

/-- The segment kind of a code; WAIT (5) is an upstream kind only. -/
def SegmentKind.ofCode (n : Nat) : Option SegmentKind :=
  if n = 0 then some .none else if n = 1 then some .first else if n = 2 then some .middle
  else if n = 3 then some .last else if n = 4 then some .only else Option.none

/-- What an accepted frame carries: its number, the arm command bytes, its segment. -/
structure DownFrame where
  number : Byte
  commands : List Byte
  kind : SegmentKind
  segment : List Byte
  deriving DecidableEq, Repr

/-- The checks of R1 that the frame's own bytes decide, in the order R1 lists them (all but the spacing). -/
def parseDownFrame (f : List Byte) : Option DownFrame :=
  if f.take 2 = [0xD2, 0x4B] then
    match SegmentKind.ofCode (byteAt f 11) with
    | Option.none => Option.none
    | some kind =>
      let len := byteAt f 12
      if len ≤ 32 ∧ (kind = .none → len = 0) ∧ f.length = 15 + len ∧
          checkBytes (slice f 2 (11 + len)) = slice f (13 + len) 2 then
        some { number := f.getD 2 0, commands := slice f 3 8, kind := kind, segment := slice f 13 len }
      else Option.none
  else Option.none

/-- RUN_PERMIT of a command byte (R4). -/
def commandRunPermit (frame : DownFrame) (a : Fin 8) : Bool := (frame.commands.getD a.val 0).getLsbD 0

/-- HOLD of a command byte (R4). -/
def commandHold (frame : DownFrame) (a : Fin 8) : Bool := (frame.commands.getD a.val 0).getLsbD 1

/-! ## Upstream slot word (spec 02 section 2.1) -/

/-- Meter status; codes outside 0 to 2 act as OK. DESIGN CHOICE (log entry 12). -/
inductive MeterStatus where
  | ok | warn | fail
  deriving DecidableEq, Repr

/-- Injector status (spec 02 section 2.1). -/
inductive InjectorStatus where
  | idle | busy | done | noFlow
  deriving DecidableEq, Repr

/-- The freshness toggle of a word. -/
def wordToggle (w : List Byte) : Bool := (w.getD 0 0).getLsbD 0

/-- The service flags of a word. -/
def wordService (w : List Byte) : ServiceFlags :=
  { start := (w.getD 0 0).getLsbD 1, fin := (w.getD 0 0).getLsbD 2, active := (w.getD 0 0).getLsbD 3 }

/-- The service byte of a word. -/
def wordServiceByte (w : List Byte) : Byte := w.getD 6 0

/-- The CRC-8 of a word is good (R22). -/
def wordCrcGood (w : List Byte) : Bool := crc8 (w.take 7) == w.getD 7 0

/-- The pulse total of a meter word. -/
def wordTotal (w : List Byte) : Nat := numAt w 1 2

/-- The temperature of a meter word, 0.01 °C. -/
def wordTemp (w : List Byte) : Int := signed16 (numAt w 3 2)

/-- The status of a meter word. -/
def wordMeterStatus (w : List Byte) : MeterStatus :=
  if byteAt w 5 = 1 then .warn else if byteAt w 5 = 2 then .fail else .ok

/-- The status of a valve word is FAULT. DESIGN CHOICE (log entry 12): no other code is. -/
def wordValveFault (w : List Byte) : Bool := byteAt w 2 = 1

/-- The status of an injector word. -/
def wordInjectorStatus (w : List Byte) : InjectorStatus :=
  if byteAt w 1 % 4 = 0 then .idle else if byteAt w 1 % 4 = 1 then .busy
  else if byteAt w 1 % 4 = 2 then .done else .noFlow

/-- The echoed shot toggle of an injector word. -/
def wordEcho (w : List Byte) : Bool := (w.getD 1 0).getLsbD 2

/-- The measured volume of an injector word, 0.1 mL. -/
def wordMeasured (w : List Byte) : Nat := numAt w 2 2

/-- The echoed pattern of a test answer. -/
def wordPattern (w : List Byte) : Nat := numAt w 1 2

/-- The test pattern of a slot in the frame with the given counter (R37). -/
def testPattern (counter slot : Nat) : Nat := (counter % 65536 + 4111 * slot) % 65536

/-! ## Requests -/

/-- A request record whose code is in the catalogue (R13). -/
structure Request where
  code : RequestCode
  arm : Byte
  payload : List Byte
  deriving DecidableEq, Repr

/-- The request a complete byte count and its stored bytes spell, when it has 3 bytes or more, a code of the catalogue,
a payload length of at most 240, and a count of 3 more than that length (R13). -/
def parseRequest (bytes : List Byte) (count : Nat) : Option Request :=
  match RequestCode.ofCode (byteAt bytes 0) with
  | none => none
  | some code =>
    if 3 ≤ count ∧ byteAt bytes 2 ≤ 240 ∧ count = 3 + byteAt bytes 2 then
      some { code := code, arm := bytes.getD 1 0, payload := bytes.drop 3 }
    else none

/-- The fields of an AUTHORIZE payload (R79). -/
structure AuthorizeFields where
  form : Nat
  ref0 : Nat
  ref1 : Nat
  ref2 : Nat
  preset : Nat
  basis : Nat
  txid : Nat
  deriving DecidableEq, Repr

/-- Reads an AUTHORIZE payload (R79). -/
def authorizeFields (p : List Byte) : AuthorizeFields :=
  { form := byteAt p 0, ref0 := byteAt p 1, ref1 := byteAt p 2, ref2 := byteAt p 3, preset := numAt p 4 2,
    basis := byteAt p 6, txid := numAt p 7 4 }

/-! ## Table entry content (R149) -/

/-- The length that a STORE payload's own target, presence, name length and counts give it (R149). -/
def contentLength (p : List Byte) : Option Nat :=
  match byteAt p 0 with
  | 0 =>
    if byteAt p 2 = 0 then some 3
    else if byteAt p 2 = 1 then some (22 + byteAt p 3 + 8 * byteAt p (21 + byteAt p 3))
    else none
  | 1 => some (3 + 6 * byteAt p 2)
  | 2 => some 37
  | 3 => some 130
  | 4 => some 10
  | 5 => some 18
  | 6 => some 6
  | _ => none

/-- The payload length passes the test of R149 that R13 makes. -/
def contentLengthOk (p : List Byte) : Bool := contentLength p == some p.length

/-- A value within a range that includes both ends. -/
def inRange (lo hi n : Nat) : Bool := decide (lo ≤ n) && decide (n ≤ hi)

/-- The ranges of R63. -/
def AdditiveItem.valid (i : AdditiveItem) : Bool :=
  inRange 1 2000 i.dose && inRange 10 1000 i.interval && inRange 1 20 i.tolerance

/-- The ranges of R62. -/
def Recipe.valid (r : Recipe) : Bool :=
  decide (r.name.length ≤ 16) && r.name.all (fun c => inRange 32 126 c.toNat) && decide (r.fraction ≤ 9000) &&
  decide (r.alphaEthanol ≤ 2000) && decide (r.alphaBase ≤ 2000) && decide (r.gain ≤ 200) &&
  decide (r.trimLimit ≤ 500) && inRange 10 500 r.band && inRange 50 2000 r.checkVolume &&
  inRange 1 500 r.persistence && decide (r.additives.length ≤ 4) && r.additives.all AdditiveItem.valid

/-- Flows strictly increasing from each point to the next (R65). -/
def flowsRise : List CurvePoint → Bool
  | [] => true
  | [_] => true
  | a :: b :: rest => decide (a.flow < b.flow) && flowsRise (b :: rest)

/-- The conditions of R65. -/
def curveValid (points : List CurvePoint) : Bool :=
  decide (points.length ≤ 8) && points.all (fun p => decide (p.flow ≤ 6000) && inRange 95000 105000 p.factor) &&
  flowsRise points

/-- The ranges of R66. -/
def ArmEntry.valid (e : ArmEntry) : Bool :=
  inRange 100 60000 e.wildK10 && inRange 100 60000 e.ctrlK10 && decide (e.settings.wildMax ≤ 4000) &&
  decide (e.settings.ctrlMax ≤ 4000) && decide (e.settings.lowRate ≤ 4000) && decide (e.settings.highRate ≤ 4000) &&
  inRange 1 500 e.settings.rampLimit && decide (e.settings.lowStart ≤ 5000) && decide (e.settings.topOff ≤ 5000) &&
  decide (e.settings.initialCloseAhead ≤ 200000) && decide (e.settings.closeAheadMax ≤ 200000) &&
  decide (e.settings.overshootLimit ≤ 200000)

/-- The ranges of R68. -/
def DeviceConfig.valid (c : DeviceConfig) : Bool :=
  (c.periodMs == 10 || c.periodMs == 20) && (c.slotCount == 16 || c.slotCount == 32 || c.slotCount == 64) &&
  inRange 5 500 c.linkLossLimit && inRange 10 3000 c.tempHoldLimit && inRange 10 1000 c.startWindow &&
  inRange 10 3600 c.holdLimitS && inRange 100 3000 c.settleLimit && inRange 1 100 c.unauthorizedL

/-- Every field of the content lies within its range (R62, R63, R65, R66, R68; the types hold R71, R154 and R161). -/
def Content.valid : Content → Bool
  | .recipe _ none => true
  | .recipe _ (some r) => r.valid
  | .curve _ points => curveValid points
  | .armEntry _ e => e.valid
  | .slotTable _ => true
  | .aliasTable _ _ => true
  | .config c => c.valid
  | .protection _ => true

/-- The entry a content belongs to. -/
def Content.key : Content → EntryKey
  | .recipe s _ => .recipe s
  | .curve i _ => .curve i
  | .armEntry a _ => .armEntry a
  | .slotTable _ => .slotTable
  | .aliasTable a _ => .aliasTable a
  | .config _ => .config
  | .protection _ => .protection

/-- The entry a target code and an index name, if both are in range (R149, R150 step 3, R158). -/
def EntryKey.ofTarget (target index : Nat) : Option EntryKey :=
  match target with
  | 0 => (finOf 64 index).map .recipe
  | 1 => (finOf 16 index).map .curve
  | 2 => (finOf 8 index).map .armEntry
  | 3 => if index = 0 then some .slotTable else none
  | 4 => (finOf 8 index).map .aliasTable
  | 5 => if index = 0 then some .config else none
  | 6 => if index = 0 then some .protection else none
  | _ => none

/-- An additive item of a recipe (R149: injector 1, dose 2, interval 2, shot tolerance 2, policy 1). -/
def readAdditive (p : List Byte) (o : Nat) : Option AdditiveItem :=
  match finOf 4 (byteAt p o), boolOf (byteAt p (o + 7)) with
  | some injector, some continues =>
    some { injector := injector, dose := numAt p (o + 1) 2, interval := numAt p (o + 3) 2,
           tolerance := numAt p (o + 5) 2, stop := !continues }
  | _, _ => none

/-- A recipe record in a STORE payload, the name length at offset 3 (R149). -/
def readRecipe (p : List Byte) : Option Recipe :=
  let o := 4 + byteAt p 3
  match boolOf (byteAt p (o + 2)), collect ((List.range (byteAt p (o + 17))).map (fun i => readAdditive p (o + 18 + 8 * i))) with
  | some ethanol, some additives =>
    some { name := slice p 4 (byteAt p 3), fraction := numAt p o 2, ethanolControlled := ethanol,
           alphaEthanol := numAt p (o + 3) 2, alphaBase := numAt p (o + 5) 2, gain := numAt p (o + 7) 2,
           trimLimit := numAt p (o + 9) 2, band := numAt p (o + 11) 2, checkVolume := numAt p (o + 13) 2,
           persistence := numAt p (o + 15) 2, additives := additives }
  | _, _ => none

/-- The points of a curve in a STORE payload (R149). -/
def readCurve (p : List Byte) : List CurvePoint :=
  (List.range (byteAt p 2)).map (fun i => { flow := numAt p (3 + 6 * i) 2, factor := numAt p (5 + 6 * i) 4 })

/-- An arm entry in a STORE payload, the fields in the order of R66 (R149). -/
def readArmEntry (p : List Byte) : Option ArmEntry :=
  match boolOf (byteAt p 2), finOf 4 (numAt p 3 2), finOf 16 (byteAt p 9), finOf 16 (byteAt p 10) with
  | some enabled, some lane, some wildCurve, some ctrlCurve =>
    some { enabled := enabled, wildK10 := numAt p 5 2, ctrlK10 := numAt p 7 2, wildCurve := wildCurve,
           ctrlCurve := ctrlCurve,
           settings := { lane := lane, wildMax := numAt p 11 2, ctrlMax := numAt p 13 2, lowRate := numAt p 15 2,
                         highRate := numAt p 17 2, rampLimit := numAt p 19 2, lowStart := numAt p 21 2,
                         topOff := numAt p 23 2, initialCloseAhead := numAt p 25 4, closeAheadMax := numAt p 29 4,
                         overshootLimit := numAt p 33 4 } }
  | _, _, _, _ => none

/-- The role of a code (spec 02 section 2.1). -/
def Role.ofCode (n : Nat) : Option Role :=
  match n with
  | 0 => some .unused
  | 1 => some .wildMeter
  | 2 => some .ctrlMeter
  | 3 => some .wildValve
  | 4 => some .ctrlValve
  | n => (finOf 4 (n - 5)).map .inj

/-- One pair of the slot table (R71). -/
def readSlotEntry (p : List Byte) (s : Nat) : Option SlotEntry :=
  match finOf 8 (byteAt p (2 + 2 * s)), Role.ofCode (byteAt p (3 + 2 * s)) with
  | some arm, some role => some { arm := arm, role := role }
  | _, _ => none

/-- The list as a vector, if it has the vector's length. -/
def vectorOf {α : Type} (n : Nat) (l : List α) : Option (Vector α n) :=
  if h : l.length = n then some ⟨l.toArray, by simpa using h⟩ else none

/-- The slot table in a STORE payload (R71, R149). -/
def readSlotTable (p : List Byte) : Option (Vector SlotEntry 64) :=
  match collect ((List.range 64).map (readSlotEntry p)) with
  | some entries => vectorOf 64 entries
  | none => none

/-- One alias: a slot index, or 255 for empty (R161). -/
def readAlias (n : Nat) : Option (Option (Fin 64)) :=
  if n = 255 then some none else (finOf 64 n).map some

/-- An alias table in a STORE payload (R161). -/
def readAliasTable (p : List Byte) : Option (Vector (Option (Fin 64)) 8) :=
  match collect ((List.range 8).map (fun i => readAlias (byteAt p (2 + i)))) with
  | some slots => vectorOf 8 slots
  | none => none

/-- The device config in a STORE payload, the fields in the order of R68 (R149). -/
def readConfig (p : List Byte) : DeviceConfig :=
  { periodMs := numAt p 2 2, slotCount := numAt p 4 2, linkLossLimit := numAt p 6 2, tempHoldLimit := numAt p 8 2,
    startWindow := numAt p 10 2, holdLimitS := numAt p 12 2, settleLimit := numAt p 14 2,
    unauthorizedL := numAt p 16 2 }

/-- The protection mode of a code (section 9.2). -/
def ProtMode.ofCode (n : Nat) : Option ProtMode :=
  match n with
  | 0 => some .modeOpen
  | 1 => some .switched
  | 2 => some .lockedToRestart
  | 3 => some .permanent
  | _ => none

/-- A protection record in a STORE payload (section 9.2). -/
def readProtection (p : List Byte) : Option Protection :=
  match finOf 8 (byteAt p 2), boolOf (byteAt p 3), boolOf (byteAt p 4), ProtMode.ofCode (byteAt p 5) with
  | some range, some top, some complement, some mode =>
    some { range := range, top := top, complement := complement, mode := mode }
  | _, _, _, _ => none

/-- The content a payload of a right length spells, its ranges not yet checked. None where a code, flag or index
byte has a value other than those given for it. -/
def readContent (p : List Byte) : Option Content :=
  match EntryKey.ofTarget (byteAt p 0) (byteAt p 1) with
  | none => none
  | some (.recipe s) => if byteAt p 2 = 0 then some (.recipe s none) else (readRecipe p).map (fun r => .recipe s (some r))
  | some (.curve i) => some (.curve i (readCurve p))
  | some (.armEntry a) => (readArmEntry p).map (.armEntry a)
  | some .slotTable => (readSlotTable p).map .slotTable
  | some (.aliasTable a) => (readAliasTable p).map (.aliasTable a)
  | some .config => some (.config (readConfig p))
  | some .protection => (readProtection p).map .protection

/-- The content of a STORE payload of a right length, if it passes the content checks (R150 step 3). -/
def decodeContent (p : List Byte) : Option Content :=
  match readContent p with
  | some c => if c.valid then some c else none
  | none => none

/-- An additive item in the encoding of section 9.2. -/
def writeAdditive (i : AdditiveItem) : List Byte :=
  beBytes 1 i.injector.val ++ beBytes 2 i.dose ++ beBytes 2 i.interval ++ beBytes 2 i.tolerance ++
  beBytes 1 (boolNum (!i.stop))

/-- A recipe record in the encoding of section 9.2. -/
def writeRecipe (r : Recipe) : List Byte :=
  beBytes 1 r.name.length ++ r.name ++ beBytes 2 r.fraction ++ beBytes 1 (boolNum r.ethanolControlled) ++
  beBytes 2 r.alphaEthanol ++ beBytes 2 r.alphaBase ++ beBytes 2 r.gain ++ beBytes 2 r.trimLimit ++
  beBytes 2 r.band ++ beBytes 2 r.checkVolume ++ beBytes 2 r.persistence ++ beBytes 1 r.additives.length ++
  r.additives.flatMap writeAdditive

/-- An arm entry in the encoding of section 9.2. -/
def writeArmEntry (e : ArmEntry) : List Byte :=
  beBytes 1 (boolNum e.enabled) ++ beBytes 2 e.settings.lane.val ++ beBytes 2 e.wildK10 ++ beBytes 2 e.ctrlK10 ++
  beBytes 1 e.wildCurve.val ++ beBytes 1 e.ctrlCurve.val ++ beBytes 2 e.settings.wildMax ++
  beBytes 2 e.settings.ctrlMax ++ beBytes 2 e.settings.lowRate ++ beBytes 2 e.settings.highRate ++
  beBytes 2 e.settings.rampLimit ++ beBytes 2 e.settings.lowStart ++ beBytes 2 e.settings.topOff ++
  beBytes 4 e.settings.initialCloseAhead ++ beBytes 4 e.settings.closeAheadMax ++
  beBytes 4 e.settings.overshootLimit

/-- The byte of an alias (R161). -/
def aliasByte : Option (Fin 64) → Nat
  | none => 255
  | some s => s.val

/-- The encoding of a content, from the target code to its last byte (section 9.2). -/
def encodeContent : Content → List Byte
  | .recipe s none => [0, BitVec.ofNat 8 s.val, 0]
  | .recipe s (some r) => [0, BitVec.ofNat 8 s.val, 1] ++ writeRecipe r
  | .curve i points =>
    [1, BitVec.ofNat 8 i.val] ++ beBytes 1 points.length ++
    points.flatMap (fun p => beBytes 2 p.flow ++ beBytes 4 p.factor)
  | .armEntry a e => [2, BitVec.ofNat 8 a.val] ++ writeArmEntry e
  | .slotTable t => [3, 0] ++ t.toList.flatMap (fun e => beBytes 1 e.arm.val ++ beBytes 1 e.role.code)
  | .aliasTable a t => [4, BitVec.ofNat 8 a.val] ++ t.toList.flatMap (fun s => beBytes 1 (aliasByte s))
  | .config c =>
    [5, 0] ++ beBytes 2 c.periodMs ++ beBytes 2 c.slotCount ++ beBytes 2 c.linkLossLimit ++
    beBytes 2 c.tempHoldLimit ++ beBytes 2 c.startWindow ++ beBytes 2 c.holdLimitS ++ beBytes 2 c.settleLimit ++
    beBytes 2 c.unauthorizedL
  | .protection r =>
    [6, 0] ++ beBytes 1 r.range.val ++ beBytes 1 (boolNum r.top) ++ beBytes 1 (boolNum r.complement) ++
    beBytes 1 r.mode.code

/-- What a commit writes: the encoding and its check word (R146). -/
def sealContent (c : Content) : List Byte := encodeContent c ++ checkBytes (encodeContent c)

/-- What a nonvolatile entry's bytes load as, if they pass the entry's check: the check word, the length and the
ranges (R147), and the entry's own target and index. -/
def unsealContent (key : EntryKey) (bytes : List Byte) : Option Content :=
  let body := bytes.take (bytes.length - 2)
  if 2 ≤ bytes.length ∧ checkBytes body = bytes.drop (bytes.length - 2) ∧ contentLengthOk body then
    match decodeContent body with
    | some c => if c.key = key then some c else none
    | none => none
  else none

end Sys2Proof.Machine
end

