-- ==== Sys2Proof/Machine/Ops.lean ====
section
/-! DEFINITION. Reading and updating the pieces of the state, and the quantities that several blocks derive from them. -/

namespace Sys2Proof.Machine

/-- The eight arms, in order. -/
def allArms : List (Fin 8) := [0, 1, 2, 3, 4, 5, 6, 7]

/-- The four lanes, in order. -/
def allLanes : List (Fin 4) := [0, 1, 2, 3]

/-- The clamp of spec 00 section 5. -/
def clampInt (x lo hi : Int) : Int := if x < lo then lo else if hi < x then hi else x

/-- The clamp of spec 00 section 5 on natural numbers. -/
def clampNat (x lo hi : Nat) : Nat := if x < lo then lo else if hi < x then hi else x

/-- The smallest integer not less than a quotient. -/
def ceilDiv (n d : Nat) : Nat := (n + d - 1) / d

/-- A quotient rounded to nearest, halves away from zero (spec 00 section 5). -/
def roundDiv (n : Int) (d : Nat) : Int :=
  if 0 ≤ n then ((2 * n.natAbs + d) / (2 * d) : Nat) else -((2 * n.natAbs + d) / (2 * d) : Nat)

/-- One step of a set-point toward its target, at most the ramp limit (R88, R108). -/
def rampToward (previous target limit : Nat) : Nat :=
  if previous < target then min target (previous + limit)
  else if target < previous then max target (previous - limit)
  else previous

/-! ## Arms -/

/-- An arm. -/
def State.arm (s : State) (a : Fin 8) : Arm := s.arms[a]

/-- The state with one arm replaced. -/
def State.setArm (s : State) (a : Fin 8) (x : Arm) : State := { s with arms := s.arms.set a x }

/-- The state with one arm changed. -/
def State.modArm (s : State) (a : Fin 8) (f : Arm → Arm) : State := s.setArm a (f (s.arm a))

/-- The states in which an arm has an open batch (R41). -/
def ArmState.isOpen : ArmState → Bool
  | .authorized | .startPending | .running | .holding | .held | .closing => true
  | .idle | .faulted => false

/-- The arm has an open batch (R41). -/
def Arm.isOpen (x : Arm) : Bool := x.state.isOpen

/-- An arm has an open batch. -/
def State.anyOpen (s : State) : Bool := allArms.any (fun a => (s.arm a).isOpen)

/-- The arm's sense code set (R139). -/
def Arm.note (x : Arm) (c : Sense) : Arm := { x with sense := c }

/-- A stream account of the arm. -/
def Arm.account (x : Arm) : StreamPos → Account
  | .wild => x.wild
  | .ctrl => x.ctrl

/-- The arm with one stream account replaced. -/
def Arm.setAccount (x : Arm) (p : StreamPos) (acc : Account) : Arm :=
  match p with
  | .wild => { x with wild := acc }
  | .ctrl => { x with ctrl := acc }

/-- Net delivered volume N = W + C (R119). -/
def Arm.netDelivered (x : Arm) : Nat := x.wild.net + x.ctrl.net

/-- Delivered on the preset basis (R78); 0 without a batch context. -/
def Arm.delivered (x : Arm) : Nat :=
  match x.ctx with
  | none => 0
  | some c => if c.netBasis then x.wild.net + x.ctrl.net else x.wild.gross + x.ctrl.gross

/-- Remaining: the preset less delivered, or 0 (R78); 0 without a batch context. -/
def Arm.remaining (x : Arm) : Nat :=
  match x.ctx with
  | none => 0
  | some c => c.presetMl - x.delivered

/-- The controlled fraction f_C of a recipe (R64). -/
def Recipe.ctrlFraction (r : Recipe) : Nat := if r.ethanolControlled then r.fraction else 10000 - r.fraction

/-- The stream of a position carries ethanol (R64). -/
def Recipe.isEthanol (r : Recipe) : StreamPos → Bool
  | .ctrl => r.ethanolControlled
  | .wild => !r.ethanolControlled

/-- The thermal coefficient of the product in a position (R64). -/
def Recipe.alpha (r : Recipe) (p : StreamPos) : Nat := if r.isEthanol p then r.alphaEthanol else r.alphaBase

/-- The ethanol and base net totals of an arm's batch (R78, R112). -/
def Arm.ethanolBase (x : Arm) : Nat × Nat :=
  match x.ctx with
  | none => (0, 0)
  | some c => if c.recipe.ethanolControlled then (x.ctrl.net, x.wild.net) else (x.wild.net, x.ctrl.net)

/-- The actual ethanol fraction Fa in bp, absent when nothing is counted (R112). -/
def Arm.actualFraction (x : Arm) : Option Nat :=
  let eb := x.ethanolBase
  if eb.1 + eb.2 = 0 then none else some (eb.1 * 10000 / (eb.2 + eb.1))

/-! ## Meters -/

/-- A meter. -/
def State.meter (s : State) (a : Fin 8) : StreamPos → Meter
  | .wild => s.meters[a].wild
  | .ctrl => s.meters[a].ctrl

/-- The state with one meter replaced. -/
def State.setMeter (s : State) (a : Fin 8) (p : StreamPos) (m : Meter) : State :=
  match p with
  | .wild => { s with meters := s.meters.set a { s.meters[a] with wild := m } }
  | .ctrl => { s with meters := s.meters.set a { s.meters[a] with ctrl := m } }

/-- The state with one meter changed. -/
def State.modMeter (s : State) (a : Fin 8) (p : StreamPos) (f : Meter → Meter) : State :=
  s.setMeter a p (f (s.meter a p))

/-- The meter position of a role, if it is a meter's (spec 02 section 2.1). -/
def Role.meterPos : Role → Option StreamPos
  | .wildMeter => some .wild
  | .ctrlMeter => some .ctrl
  | _ => none

/-- The role of a meter. -/
def StreamPos.meterRole : StreamPos → Role
  | .wild => .wildMeter
  | .ctrl => .ctrlMeter

/-! ## Tables -/

/-- The device config record in force. -/
def State.config (s : State) : DeviceConfig := s.tables.config.work

/-- The working arm-table entry of an arm. -/
def State.armEntry (s : State) (a : Fin 8) : ArmEntry := s.tables.arms[a].work

/-- The working slot table. -/
def State.slotTable (s : State) : Vector SlotEntry 64 := s.tables.slots.work

/-- The meter constant of an arm entry for a position (R41). -/
def ArmEntry.k10 (e : ArmEntry) : StreamPos → Nat
  | .wild => e.wildK10
  | .ctrl => e.ctrlK10

/-- The curve index of an arm entry for a position (R41). -/
def ArmEntry.curve (e : ArmEntry) : StreamPos → Fin 16
  | .wild => e.wildCurve
  | .ctrl => e.ctrlCurve

/-- The maximum flow of a position (R41). -/
def ArmSettings.maxFlow (st : ArmSettings) : StreamPos → Nat
  | .wild => st.wildMax
  | .ctrl => st.ctrlMax

/-- The arm and role a slot is assigned to under a slot count and a slot table (R29). -/
def assignment (slotCount : Nat) (table : Vector SlotEntry 64) (i : Fin 64) : Option (Fin 8 × Role) :=
  if i.val < slotCount ∧ table[i].role ≠ .unused then some (table[i].arm, table[i].role) else none

/-- The slots of an arm and role under a slot count and a slot table, in order (R74). -/
def slotsOf (slotCount : Nat) (table : Vector SlotEntry 64) (a : Fin 8) (r : Role) : List (Fin 64) :=
  (List.finRange 64).filter (fun i => assignment slotCount table i == some (a, r))

/-- The assignment of a slot in the frame in progress (R29). -/
def State.frameAssignment (s : State) (i : Fin 64) : Option (Fin 8 × Role) :=
  assignment s.trunk.slotCount s.trunk.table i

/-- The assignment of a slot under the working slot table and the slot count in force (R74, R163). -/
def State.workingAssignment (s : State) (i : Fin 64) : Option (Fin 8 × Role) :=
  assignment s.config.slotCount s.slotTable i

/-- The roles that a batch with the given additive list needs, in the order of R74. -/
def neededRoles (additives : List AdditiveItem) : List Role :=
  [.wildMeter, .ctrlMeter, .wildValve, .ctrlValve] ++ additives.map (fun i => .inj i.injector)

/-- The slots that the batch of a context needs (R74). -/
def State.neededSlots (s : State) (a : Fin 8) (c : Context) : List (Fin 64) :=
  (neededRoles c.recipe.additives).flatMap (slotsOf s.config.slotCount s.slotTable a)

/-! ## Rack link and store controls -/

/-- The state with the rack link changed. -/
def State.modRack (s : State) (f : RackLink → RackLink) : State := { s with rack := f s.rack }

/-- The state with the trunk changed. -/
def State.modTrunk (s : State) (f : Trunk → Trunk) : State := { s with trunk := f s.trunk }

/-- The state with the store controls changed. -/
def State.modStore (s : State) (f : StoreCtl → StoreCtl) : State := { s with store := f s.store }

/-- The state with the device sense code set (R140). -/
def State.noteDevice (s : State) (c : Sense) : State := s.modRack (fun r => { r with deviceSense := c })

/-- A transfer replaced. -/
def State.setTransfer (s : State) (a : Fin 8) (t : Transfer) : State :=
  { s with transfers := s.transfers.set a t }

/-- A start window replaced. -/
def State.setWindow (s : State) (l : Fin 4) (w : StartWindow) : State := { s with windows := s.windows.set l w }

/-- The metrological change counter raised by one, staying at 65,535 (R157). -/
def State.raiseMetro (s : State) : State :=
  { s with nv := { s.nv with metroCounter := satSucc 65535 s.nv.metroCounter } }

/-- A change that happens only while the part has its supply: loss of supply stops the part (table row POWER_DOWN). -/
def State.whenPowered (s : State) (f : State → State) : State := if s.powered then f s else s

end Sys2Proof.Machine
end

