-- ==== Sys2Proof/Machine/Additive.lean ====
section
/-! DEFINITION. Ending a batch (R96, R97) and additive injection (spec 07), on one arm. -/

namespace Sys2Proof.Machine

/-! ## Targets and shots -/

/-- The nominal shot of an item, 0.1 mL (R63). -/
def AdditiveItem.nominal (i : AdditiveItem) : Nat := i.dose * i.interval / 100

/-- The target so far of an item for a net delivered volume, 0.1 mL (R119). -/
def AdditiveItem.targetFor (i : AdditiveItem) (n : Nat) : Nat := n * i.dose / 100000

/-- The deficit of an entry: target so far less injected so far (R119). -/
def AdditiveEntry.deficit (e : AdditiveEntry) : Int := (e.target : Int) - (e.injected : Int)

/-- A shot volume kept between 10 and twice the nominal (R121, R128). -/
def shotVolume (v : Int) (nominal : Nat) : Nat := (clampInt v 10 (2 * nominal : Nat)).toNat

/-- The first multiple of the interval at or above the net delivered volume (R119). -/
def pointAtOrAbove (n intervalMl : Nat) : Nat := ceilDiv n intervalMl * intervalMl

/-- The arm with entry `k` replaced. -/
def Arm.setEntry (x : Arm) (k : Nat) (e : AdditiveEntry) : Arm := { x with entries := x.entries.set k e }

/-- A shot issued for entry `k`: the inverse of the injector's reference toggle, age 0 (R121). -/
def Arm.issueShot (x : Arm) (k : Nat) (e : AdditiveEntry) (volume : Nat) : Arm :=
  let inj := x.injectors[e.item.injector]
  { x with
    entries := x.entries.set k { e with shot := some { volume := volume, toggle := !inj.ref, age := 0 } },
    injectors := x.injectors.set e.item.injector { inj with held := !inj.ref } }

/-- The busy mark of an entry's injector (R118). -/
def Arm.injectorBusy (x : Arm) (e : AdditiveEntry) : Bool := x.injectors[e.item.injector].busy

/-! ## Entering CLOSING -/

/-- An ACTIVE entry becomes DROPPED; a FAILED one stays FAILED (R128). -/
def AdditiveEntry.dropped (e : AdditiveEntry) : AdditiveEntry :=
  if e.state = .failed then e else { e with state := .dropped }

/-- Entry `k` at a NORMAL CLOSING entry: target, final make-up shot, DROPPED (R128). -/
def Arm.closeEntryNormal (x : Arm) (k : Nat) : Arm :=
  match x.entries[k]? with
  | none => x
  | some e =>
    let e1 := { e with target := e.item.targetFor x.netDelivered }
    if e1.state = .active ∧ e1.shot = none ∧ x.injectorBusy e1 = false ∧ (e1.item.nominal : Int) ≤ 2 * e1.deficit then
      x.issueShot k e1.dropped (shotVolume e1.deficit e1.item.nominal)
    else x.setEntry k e1.dropped

/-- The Additive Scheduler at CLOSING entry (R128). -/
def Arm.closeEntries (x : Arm) (normal : Bool) : Arm :=
  if normal then (List.range x.entries.length).foldl Arm.closeEntryNormal x
  else { x with entries := x.entries.map AdditiveEntry.dropped }

/-- The current record's state at CLOSING entry (R133). -/
def CurrentRecord.closing (r : CurrentRecord) : CurrentRecord := { r with state := .closing }

/-- The batch enters CLOSING at its first end cause (R96). Both set-points go to 0 (R77) and the cap is reported as not
operative (R109). -/
def Arm.enterClosing (x : Arm) (c : EndCause) : Arm :=
  let x1 := { x with
    state := .closing, phase := .none, endReason := some c, wildSet := 0,
    ratio := { x.ratio with ctrlSet := 0, limited := false }, deliveredAtClose := x.delivered, zeroCount := 0,
    settleAge := 0, current := x.current.map CurrentRecord.closing }
  let x2 := x1.closeEntries (c == .normal)
  if c.latching then x2.note c.sense else x2

/-- A cause that reaches a CLOSING batch (R97). -/
def Arm.addSecondary (x : Arm) (c : EndCause) : Arm :=
  if x.endReason = some c ∨ c ∈ x.secondary then x
  else
    let x1 := { x with secondary := x.secondary ++ [c] }
    if c.latching then x1.note c.sense else x1

/-- An end cause reaches the Arm Controller (R93 to R97): it ends a flowing batch, joins the secondary causes of a
closing one, and is not recorded in any other state. -/
def Arm.raiseCause (x : Arm) (c : EndCause) : Arm :=
  match x.state with
  | .running | .holding | .held => x.enterClosing c
  | .closing => x.addSecondary c
  | .idle | .authorized | .startPending | .faulted => x

/-! ## Ends of shots -/

/-- Classes of shots (R124). -/
inductive ShotClass where
  | good | short | long | missed
  deriving DecidableEq, Repr

/-- SHORT and MISSED shots raise the consecutive-bad count (R126). -/
def ShotClass.isBad : ShotClass → Bool
  | .short | .missed => true
  | .good | .long => false

/-- The class of a DONE reply with measured volume `m` to a shot of volume `v` (R124). -/
def classifyDone (m v tolerance : Nat) : ShotClass :=
  if ((m : Int) - v).natAbs * 100 ≤ v * tolerance then .good else if m < v then .short else .long

/-- The count of a class raised by one, saturating at 65,535 (R124). -/
def AdditiveEntry.count (e : AdditiveEntry) : ShotClass → AdditiveEntry
  | .good => { e with good := satSucc 65535 e.good }
  | .short => { e with short := satSucc 65535 e.short }
  | .long => { e with long := satSucc 65535 e.long }
  | .missed => { e with missed := satSucc 65535 e.missed }

/-- The entry with its shot ended: volume added, class counted, consecutive-bad count updated, FAILED at 3
(R123, R125, R126). -/
def AdditiveEntry.endShot (e : AdditiveEntry) (cls : ShotClass) (measured : Nat) : AdditiveEntry :=
  let e1 := (e.count cls)
  let bad := if cls.isBad then satSucc 3 e.bad else 0
  { e1 with shot := none, injected := e.injected + measured, bad := bad,
            state := if bad = 3 then .failed else e.state }

/-- A shot of entry `k` ends; an entry that thereby goes FAILED acts by its policy (R126). -/
def Arm.endShot (x : Arm) (k : Nat) (e : AdditiveEntry) (cls : ShotClass) (measured : Nat) : Arm :=
  let e1 := e.endShot cls measured
  let x1 := x.setEntry k e1
  if e1.state = .failed ∧ e.state ≠ .failed then
    if e.item.stop then x1.raiseCause .additiveFail else { x1 with additiveFault := true }
  else x1

/-! ## The pass -/

/-- Step 1 of the pass for entry `k`: the age, and the timeout at 100 (R120, R125). -/
def Arm.ageShot (x : Arm) (k : Nat) : Arm :=
  match x.entries[k]? with
  | none => x
  | some e =>
    match e.shot with
    | none => x
    | some sh =>
      if Config.answerFrames ≤ sh.age + 1 then x.endShot k e .missed 0
      else x.setEntry k { e with shot := some { sh with age := sh.age + 1 } }

/-- Steps 2 and 3 of the pass for entry `k` of a RUNNING arm (R120, R121, R122). -/
def Arm.crossPoint (x : Arm) (k : Nat) : Arm :=
  match x.entries[k]? with
  | none => x
  | some e =>
    let e1 := { e with target := e.item.targetFor x.netDelivered }
    if e1.state = .active ∧ e1.nextPoint < x.netDelivered then
      let e2 := { e1 with nextPoint := pointAtOrAbove x.netDelivered (e1.item.interval * 1000) }
      if e2.shot = none ∧ x.injectorBusy e2 = false then
        x.issueShot k e2 (shotVolume (e2.item.nominal + e2.deficit) e2.item.nominal)
      else x.setEntry k e2
    else x.setEntry k e1

/-- The pass for entry `k`: the arm state is tested after step 1 (R120). -/
def Arm.passEntry (x : Arm) (k : Nat) : Arm :=
  let x1 := x.ageShot k
  if x1.state = .running then x1.crossPoint k else x1

/-- The Additive Scheduler's pass at an arm frame closed event, entries in list order (R120). -/
def Arm.additivePass (x : Arm) : Arm := (List.range x.entries.length).foldl Arm.passEntry x

/-! ## Injector words -/

/-- Reference toggle and busy mark after a valid injector word (R118). -/
def Injector.afterWord (i : Injector) (status : InjectorStatus) (echo : Bool) : Injector :=
  if status = .busy then { i with busy := true } else { i with busy := false, ref := echo }

/-- Entry `k` examines a valid word of injector `j` for a reply (R123, R124). -/
def Arm.replyEntry (j : Fin 4) (status : InjectorStatus) (echo : Bool) (measured : Nat) (x : Arm) (k : Nat) : Arm :=
  match x.entries[k]? with
  | none => x
  | some e =>
    match e.shot with
    | none => x
    | some sh =>
      if e.item.injector = j ∧ echo = sh.toggle then
        match status with
        | .done => x.endShot k e (classifyDone measured sh.volume e.item.tolerance) measured
        | .noFlow => x.endShot k e .missed measured
        | .idle | .busy => x
      else x

/-- A valid word of injector `j` is handed over: toggles first, then the reply (R118, R123). -/
def Arm.injectorWord (x : Arm) (j : Fin 4) (status : InjectorStatus) (echo : Bool) (measured : Nat) : Arm :=
  let x1 := { x with injectors := x.injectors.set j (x.injectors[j].afterWord status echo) }
  (List.range x1.entries.length).foldl (Arm.replyEntry j status echo measured) x1

/-! ## Setting up and closing the entries -/

/-- An entry at AUTHORIZE (R117). -/
def AdditiveEntry.opened (i : AdditiveItem) : AdditiveEntry :=
  { item := i, state := .active, nextPoint := 0, target := 0, injected := 0, shot := none, bad := 0, good := 0,
    short := 0, long := 0, missed := 0 }

/-- Step 1 of finalize for an entry: an outstanding shot is counted MISSED (R130). -/
def AdditiveEntry.missOutstanding (e : AdditiveEntry) : AdditiveEntry :=
  match e.shot with
  | none => e
  | some _ => { e.count .missed with shot := none }

/-- The outcome of a closed entry (R130 step 3). -/
def AdditiveEntry.outcome (e : AdditiveEntry) : AdditiveOutcome :=
  if e.state = .failed then .failed
  else if ((e.injected : Int) - e.target).natAbs * 100 ≤ e.target * e.item.tolerance then .ok
  else .outOfTol

/-- What an entry shows in a record (R134). -/
def AdditiveEntry.record (e : AdditiveEntry) (outcome : AdditiveOutcome) : AdditiveRecord :=
  { injector := e.item.injector, target := e.target, injected := e.injected, good := e.good, short := e.short,
    long := e.long, missed := e.missed, outcome := outcome }

/-- What an entry hands to the record at finalize (R130). -/
def AdditiveEntry.closed (e : AdditiveEntry) (n : Nat) : AdditiveRecord :=
  let e1 := { e.missOutstanding with target := e.item.targetFor n }
  e1.record e1.outcome

end Sys2Proof.Machine
end

