-- ==== Sys2Proof/Machine/Ratio.lean ====
section
/-! DEFINITION. Ratio control (spec 06) on one arm. -/

namespace Sys2Proof.Machine

/-- The wild cap of a batch (R109); none when f_C is 0 (R88). -/
def Context.wildCap (c : Context) : Option Nat :=
  if c.recipe.ctrlFraction = 0 then none
  else some (c.settings.ctrlMax * (10000 - c.recipe.ctrlFraction) / c.recipe.ctrlFraction)

/-- The mode taken at AUTHORIZE (R104). -/
def RatioMode.ofFraction (fraction : Nat) : RatioMode := if fraction = 0 then .straight else .ratio

/-- A Ratio Controller at the acceptance of AUTHORIZE (R104). -/
def RatioCtl.opened (fraction : Nat) : RatioCtl :=
  { mode := RatioMode.ofFraction fraction, ctrlSet := 0, maxDev := 0, outCount := 0, limited := false }

/-- The deviation D for the net totals of a batch (R105). -/
def deviation (w c fC : Nat) : Int := ((w + c) * fC / 10000 : Nat) - (c : Int)

/-- The feedforward (R106). -/
def feedforward (qW fC : Nat) : Nat := qW * fC / (10000 - fC)

/-- The trim (R107). -/
def trim (d : Int) (gain limit : Nat) : Int := clampInt (Int.tdiv (d * gain) 1000) (-(limit : Int)) limit

/-- The demand after the clamp (R108 step 1). -/
def ctrlDemand (c : Context) (qW w cNet : Nat) : Nat :=
  (clampInt (feedforward qW c.recipe.ctrlFraction +
    trim (deviation w cNet c.recipe.ctrlFraction) c.recipe.gain c.recipe.trimLimit) 0 c.settings.ctrlMax).toNat

/-- Steps 1 to 4 of the pass in mode RATIO: maximum deviation and controlled set-point (R105 to R108). -/
def Arm.ratioSetpoint (x : Arm) (c : Context) (qW : Nat) : Arm :=
  let d := deviation x.wild.net x.ctrl.net c.recipe.ctrlFraction
  { x with ratio := { x.ratio with
      maxDev := min 4294967295 (max x.ratio.maxDev d.natAbs),
      ctrlSet := rampToward x.ratio.ctrlSet (ctrlDemand c qW x.wild.net x.ctrl.net) c.settings.rampLimit } }

/-- The fraction lies outside the band of the recipe (R112 step 2). -/
def outsideBand (r : Recipe) (fa : Nat) : Bool := decide (r.band < ((fa : Int) - r.fraction).natAbs)

/-- The out-of-band count after the band check (R112 steps 1 to 3). -/
def Arm.bandCount (x : Arm) (c : Context) : Nat :=
  if x.netDelivered < c.recipe.checkVolume * 1000 then x.ratio.outCount
  else
    match x.actualFraction with
    | none => x.ratio.outCount
    | some fa => if outsideBand c.recipe fa then satSucc 500 x.ratio.outCount else 0

/-- The band check was made at these totals (R112 step 1). -/
def Arm.bandChecked (x : Arm) (c : Context) : Bool := decide (c.recipe.checkVolume * 1000 ≤ x.netDelivered)

/-- The band check, and RATIO_FAULT when the count reaches the persistence (R112, R113). -/
def Arm.bandCheck (x : Arm) (c : Context) : Arm :=
  let x1 := { x with ratio := { x.ratio with outCount := x.bandCount c } }
  if x.bandChecked c ∧ c.recipe.persistence ≤ x.bandCount c then x1.raiseCause .ratioFault else x1

/-- The states in which a straight load is watched for uncommanded flow (R111). -/
def ArmState.watched : ArmState → Bool
  | .running | .holding | .held | .closing => true
  | _ => false

/-- A straight load at an arm frame closed event: set-point held at 0, UNCOMMANDED_FLOW above 2,000 mL (R110, R111). -/
def Arm.straightWatch (x : Arm) : Arm :=
  let x1 := if x.state = .running then { x with ratio := { x.ratio with ctrlSet := 0 } } else x
  if x1.state.watched ∧ Config.straightLimit < x1.ctrl.net then x1.raiseCause .uncommandedFlow else x1

/-- The Ratio Controller at an arm frame closed event. `receivedRunning` tells that the arm received the event in
RUNNING: an arm that resumes at this very event keeps its set-points at 0 (R77, R114). -/
def Arm.ratioAct (x : Arm) (receivedRunning : Bool) (qW : Nat) : Arm :=
  match x.ratio.mode, x.ctx with
  | .ratio, some c =>
    if receivedRunning ∧ x.state = .running then (x.ratioSetpoint c qW).bandCheck c else x
  | .straight, _ => x.straightWatch
  | _, _ => x

/-- The ratio status at finalize (R115). -/
def Arm.ratioStatus (x : Arm) : RatioStatus :=
  match x.ratio.mode, x.ctx with
  | .ratio, some c =>
    if x.netDelivered < c.recipe.checkVolume * 1000 then .notChecked
    else
      match x.actualFraction with
      | none => .notChecked
      | some fa => if outsideBand c.recipe fa then .outOfBand else .inBand
  | _, _ => .notChecked

end Sys2Proof.Machine
end

