-- ==== Sys2Proof/Machine/Records.lean ====
section
/-! DEFINITION. Batch records (spec 08 sections 8.1 to 8.4) and the arm process image (R8). -/

namespace Sys2Proof.Machine

/-- The weighted average temperature of a stream, absent when its gross total is 0 (R135). -/
def Account.avgTemp (acc : Account) : Option Int :=
  if acc.gross = 0 then none else some (roundDiv acc.weight acc.gross)

/-- The stream group of a position in the current record (R133, R134). -/
def Arm.streamRecord (x : Arm) (c : Context) (r : CurrentRecord) (p : StreamPos) : StreamRecord :=
  { ethanol := c.recipe.isEthanol p, gross := (x.account p).gross, net := (x.account p).net,
    avgTemp := (x.account p).avgTemp,
    k10 := (match p with | .wild => r.wildK10 | .ctrl => r.ctrlK10),
    curve := (match p with | .wild => r.wildCurve | .ctrl => r.ctrlCurve),
    factor := (x.account p).lastFactor }

/-- The current record as it stands: its own fields from R133, its live fields from their owners (R134). -/
def Arm.currentRecord (x : Arm) (a : Fin 8) (c : Context) (r : CurrentRecord) : Record :=
  { state := r.state, arm := a, batchNumber := r.batchNumber, txid := c.txid, slot := c.slot, name := c.recipe.name,
    presetMl := c.presetMl, netBasis := c.netBasis, startFrame := r.startFrame, endFrame := 0,
    wild := x.streamRecord c r .wild, ctrl := x.streamRecord c r .ctrl, finalFraction := none,
    ratioStatus := .absent, maxDev := x.ratio.maxDev, remaining := x.remaining, overshoot := 0,
    overshootFlag := false, closeAhead := c.closeAhead, overrun := 0, holdCount := x.holdCount,
    endReason := if r.state = .closing then x.endReason else none, secondary := x.secondary, metro := c.metro,
    additives := x.entries.map (fun e => e.record .absent) }

/-- The overrun: delivered now less delivered at close (R99). -/
def Arm.overrun (x : Arm) : Nat := x.delivered - x.deliveredAtClose

/-- The overshoot: delivered less the preset, or 0 (R136). -/
def Arm.overshoot (x : Arm) (c : Context) : Nat := x.delivered - c.presetMl

/-- The completed record (R136). -/
def Arm.completeRecord (x : Arm) (a : Fin 8) (c : Context) (r : CurrentRecord) (endFrame : Nat) : Record :=
  { x.currentRecord a c r with
    state := .complete, endFrame := endFrame, endReason := x.endReason, overshoot := x.overshoot c,
    overshootFlag := decide (c.settings.overshootLimit < x.overshoot c), overrun := x.overrun,
    finalFraction := x.actualFraction, ratioStatus := x.ratioStatus,
    additives := x.entries.map (fun e => e.closed x.netDelivered) }

/-! ## Encoding (spec 08 section 8.1) -/

/-- The key of a recipe slot: grade, season, package (R61). -/
def keyOfSlot (s : Nat) : List Nat := [s / 8, s / 2 % 4 + 1, s % 2]

/-- The slot of a key (R61). -/
def slotOfKey (grade season package : Nat) : Nat := (grade * 4 + (season - 1)) * 2 + package

/-- The secondary causes as a 16-bit set (spec 08 section 8.1). -/
def secondaryBits (causes : List EndCause) : Nat := causes.foldl (fun acc c => acc ||| 2 ^ c.bit) 0

/-- A stream group. -/
def StreamRecord.encode (r : StreamRecord) : List Byte :=
  field 1 (boolNum r.ethanol) ++ field 4 r.gross ++ field 4 r.net ++
  (match r.avgTemp with | none => field 2 0x8000 | some t => signedField t) ++
  field 2 r.k10 ++ field 1 r.curve.val ++ field 4 r.factor

/-- An additive item. -/
def AdditiveRecord.encode (r : AdditiveRecord) : List Byte :=
  field 1 r.injector.val ++ field 4 r.target ++ field 4 r.injected ++ field 2 r.good ++ field 2 r.short ++
  field 2 r.long ++ field 2 r.missed ++ field 1 r.outcome.code

/-- A record in the order of spec 08 section 8.1. -/
def Record.encode (r : Record) : List Byte :=
  field 1 r.state.code ++ field 1 r.arm.val ++ field 2 r.batchNumber ++ field 4 r.txid ++ field 1 r.slot.val ++
  (keyOfSlot r.slot.val).flatMap (field 1) ++ field 1 r.name.length ++ r.name ++ field 4 r.presetMl ++
  field 1 (boolNum r.netBasis) ++ field 4 r.startFrame ++ field 4 r.endFrame ++ r.wild.encode ++ r.ctrl.encode ++
  field 2 (r.finalFraction.getD 0xFFFF) ++ field 1 r.ratioStatus.code ++ field 4 r.maxDev ++ field 4 r.remaining ++
  field 4 r.overshoot ++ field 1 (boolNum r.overshootFlag) ++ field 4 r.closeAhead ++ field 4 r.overrun ++
  field 1 r.holdCount ++ field 1 (match r.endReason with | none => 0 | some c => c.sense.code) ++
  field 2 (secondaryBits r.secondary) ++ field 2 r.metro ++ field 1 r.additives.length ++
  r.additives.flatMap AdditiveRecord.encode

/-- What READ_RECORD returns for the current record: the single byte 0 when it is ABSENT (R138). -/
def Arm.currentRecordBytes (x : Arm) (a : Fin 8) : List Byte :=
  match x.current, x.ctx with
  | some r, some c => (x.currentRecord a c r).encode
  | _, _ => [0]

/-- What READ_RECORD returns for the last-batch record (R138). -/
def Arm.lastRecordBytes (x : Arm) : List Byte :=
  match x.last with
  | some r => r.encode
  | none => [0]

/-! ## Arm process image (R8) -/

/-- Delivered and remaining as the image shows them (R8). -/
def Arm.imageVolumes (x : Arm) : Nat × Nat :=
  match x.state with
  | .authorized | .startPending => (0, (x.ctx.map (·.presetMl)).getD 0)
  | .running | .holding | .held | .closing => (x.delivered, x.remaining)
  | .idle | .faulted => (0, 0)

/-- The current fraction as the image shows it, 0xFFFF when absent (R8, R112). -/
def Arm.imageFraction (x : Arm) : Nat := if x.isOpen then x.actualFraction.getD 0xFFFF else 0xFFFF

/-- The flags byte of the image (R8). -/
def Arm.imageFlags (x : Arm) (tempHold : Bool) : Nat :=
  packBits [x.ratio.limited, tempHold, x.additiveFault, decide (x.sense ≠ .none), x.toggle]

/-- The phase as the image shows it: 0 in every state but RUNNING (R8). -/
def Arm.imagePhase (x : Arm) : Nat := if x.state = .running then x.phase.code else 0

/-- The 20-byte arm process image (spec 01 section 1.1, R8). -/
def armImage (x : Arm) (wild ctrl : Meter) : List Byte :=
  field 1 x.state.code ++ field 1 x.imagePhase ++
  field 1 (x.imageFlags (decide (0 < wild.age) || decide (0 < ctrl.age))) ++ field 1 x.sense.code ++
  field 2 x.batchNumber ++ field 4 x.imageVolumes.1 ++ field 4 x.imageVolumes.2 ++ field 2 wild.flow ++
  field 2 ctrl.flow ++ field 2 x.imageFraction

end Sys2Proof.Machine
end

