-- ==== Sys2Proof/Machine/StoreEngine.lean ====
section
/-! DEFINITION. The store engine (R152): its queue, totalizer saves (R143) and commits (R153). -/

namespace Sys2Proof.Machine

/-! ## Nonvolatile entries by key -/

/-- The nonvolatile entry of a key. -/
def NvTables.get (t : NvTables) : EntryKey → NvEntry
  | .recipe i => t.recipes[i]
  | .curve i => t.curves[i]
  | .armEntry a => t.arms[a]
  | .slotTable => t.slots
  | .aliasTable a => t.aliases[a]
  | .config => t.config
  | .protection => t.protection

/-- The nonvolatile entries with one replaced. -/
def NvTables.put (t : NvTables) (e : NvEntry) : EntryKey → NvTables
  | .recipe i => { t with recipes := t.recipes.set i e }
  | .curve i => { t with curves := t.curves.set i e }
  | .armEntry a => { t with arms := t.arms.set a e }
  | .slotTable => { t with slots := e }
  | .aliasTable a => { t with aliases := t.aliases.set a e }
  | .config => { t with config := e }
  | .protection => { t with protection := e }

/-- A copy of a save entry. -/
def SaveEntry.get (e : SaveEntry) (c : Fin 2) : SaveCopy := if c = 0 then e.copy0 else e.copy1

/-- A save entry with one copy replaced. -/
def SaveEntry.put (e : SaveEntry) (c : Fin 2) (x : SaveCopy) : SaveEntry :=
  if c = 0 then { e with copy0 := x } else { e with copy1 := x }

/-- The array with one table entry replaced. -/
def Nonvolatile.putEntry (n : Nonvolatile) (k : EntryKey) (e : NvEntry) : Nonvolatile :=
  { n with tables := n.tables.put e k }

/-- The array with one copy of a save entry replaced. -/
def Nonvolatile.putSave (n : Nonvolatile) (a : Fin 8) (c : Fin 2) (x : SaveCopy) : Nonvolatile :=
  { n with saves := n.saves.set a (n.saves[a].put c x) }

/-! ## Flags of a working copy by key (R146) -/

/-- The nonvolatile invalid flag set to a value. -/
def Entry.withInvalid {α : Type} (e : Entry α) (b : Bool) : Entry α := { e with invalid := b }

/-- The tables with the nonvolatile invalid flag of one entry set to a value (R153). -/
def Tables.setInvalid (t : Tables) (b : Bool) : EntryKey → Tables
  | .recipe i => { t with recipes := t.recipes.set i (t.recipes[i].withInvalid b) }
  | .curve i => { t with curves := t.curves.set i (t.curves[i].withInvalid b) }
  | .armEntry a => { t with arms := t.arms.set a (t.arms[a].withInvalid b) }
  | .slotTable => { t with slots := t.slots.withInvalid b }
  | .aliasTable a => { t with aliases := t.aliases.set a (t.aliases[a].withInvalid b) }
  | .config => { t with config := t.config.withInvalid b }
  | .protection => { t with protection := t.protection.withInvalid b }

/-! ## Operations -/

/-- The copy and the sequence number a save of an arm writes (R143): the copy that is not the latest with the next
number, or copy 0 with number 1 when there is no latest copy. -/
def State.saveTarget (s : State) (a : Fin 8) : Fin 2 × Nat :=
  match s.store.latest[a] with
  | none => (0, 1)
  | some c =>
    match s.nv.saves[a].get c with
    | .holds image => (1 - c, (image.seq + 1) % Config.counterModulus)
    | .unwritten | .failing => (1 - c, 1)

/-- An operation begins: a save takes its values as they stand (R143). -/
def State.beginOp (s : State) : QueuedOp → RunningOp
  | .commit content => .commit content
  | .save a =>
    .save a (s.saveTarget a).1
      { seq := (s.saveTarget a).2, wild := (s.meter a .wild).totals, ctrl := (s.meter a .ctrl).totals }

/-- An operation joins at the tail; on an empty queue it begins at once (R152). -/
def State.joinQueue (s : State) (op : QueuedOp) : State :=
  match s.store.underWay with
  | none => s.modStore (fun c => { c with underWay := some (s.beginOp op) })
  | some _ => s.modStore (fun c => { c with queue := c.queue ++ [op] })

/-- A totalizer save requested for an arm; it merges into one that is queued and not begun (R143). -/
def State.requestSave (s : State) (a : Fin 8) : State :=
  if QueuedOp.save a ∈ s.store.queue then s else s.joinQueue (.save a)

/-- The next operation begins at once when one completes (R152). -/
def State.beginNext (s : State) : State :=
  match s.store.queue with
  | [] => s.modStore (fun c => { c with underWay := none })
  | op :: rest => s.modStore (fun c => { c with underWay := some (s.beginOp op), queue := rest })

/-- The number of operations in the queue, including the one under way (R158). -/
def StoreCtl.operations (c : StoreCtl) : Nat := (if c.underWay = none then 0 else 1) + c.queue.length

/-- A commit is in the queue, waiting or under way (R152, R159). -/
def StoreCtl.hasCommit (c : StoreCtl) : Bool :=
  (match c.underWay with | some (.commit _) => true | _ => false) ||
  c.queue.any (fun op => match op with | .commit _ => true | .save _ => false)

/-- A totalizer save completes (R143). -/
def State.finishSave (s : State) (a : Fin 8) (c : Fin 2) (image : SaveImage) (success : Bool) : State :=
  if success then
    { s with nv := s.nv.putSave a c (.holds image),
             store := { s.store with latest := s.store.latest.set a (some c), saveFault := false } }
  else
    { s with nv := s.nv.putSave a c .failing, store := { s.store with saveFault := true } }

/-- A commit completes (R153). -/
def State.finishCommit (s : State) (content : Content) (success : Bool) : State :=
  { s with
    nv := s.nv.putEntry content.key (if success then .written (sealContent content) else .failing),
    tables := s.tables.setInvalid (!success) content.key,
    store := { s.store with status := if success then .idle else .failed } }

/-- The save under way reaches its completion event; without one there is no such event (R143, R152). -/
def State.completeSave (s : State) (success : Bool) : State :=
  match s.store.underWay with
  | some (.save a c image) => (s.finishSave a c image success).beginNext
  | _ => s

/-- The commit under way reaches its completion event; without one there is no such event (R152, R153). -/
def State.completeCommit (s : State) (success : Bool) : State :=
  match s.store.underWay with
  | some (.commit content) => (s.finishCommit content success).beginNext
  | _ => s

/-- The array after a reset or a loss of supply: the operation under way is torn and leaves its entry or copy failing
its check; operations not begun leave it as it was (R144, R153). -/
def State.torn (s : State) : Nonvolatile :=
  match s.store.underWay with
  | none => s.nv
  | some (.commit content) => s.nv.putEntry content.key .failing
  | some (.save a c _) => s.nv.putSave a c .failing

/-- SAVE_COMPLETE (R143). -/
def execSaveComplete (success : Bool) (s : State) : Host.Outcome State Fault Refusal :=
  .next (s.whenPowered (fun t => t.completeSave success))

/-- COMMIT_COMPLETE (R153). -/
def execCommitComplete (success : Bool) (s : State) : Host.Outcome State Fault Refusal :=
  .next (s.whenPowered (fun t => t.completeCommit success))

end Sys2Proof.Machine
end

