-- ==== Sys2Proof/Machine/Batch.lean ====
section
/-! DEFINITION. The batch (spec 05): start windows, entering RUNNING, phases and the wild set-point, hold and resume,
settling, finalize, unauthorized flow, and the arm frame closed event (R57). -/

namespace Sys2Proof.Machine

/-! ## Running -/

/-- The phase taken at entry to RUNNING and at resume (R82, R91). -/
def Arm.entryPhase (x : Arm) (c : Context) : Phase :=
  if x.remaining ≤ c.settings.topOff * 1000 then .topOff else .startLow

/-- The phase after steps 1 and 2 of the evaluation (R87). -/
def Arm.nextPhase (x : Arm) (c : Context) : Phase :=
  match x.phase with
  | .startLow =>
    if x.remaining ≤ c.settings.topOff * 1000 then .topOff
    else if c.settings.lowStart * 1000 ≤ x.delivered then .high else .startLow
  | .high => if x.remaining ≤ c.settings.topOff * 1000 then .topOff else .high
  | p => p

/-- The phase evaluation, ending in CLOSING with NORMAL when remaining is within the close-ahead (R87). -/
def Arm.evaluatePhase (x : Arm) (c : Context) : Arm :=
  let x1 := { x with phase := x.nextPhase c }
  if x1.phase = .topOff ∧ x1.remaining ≤ c.closeAhead then x1.enterClosing .normal else x1

/-- The rate of a phase (R88). -/
def ArmSettings.phaseRate (st : ArmSettings) (p : Phase) : Nat := if p = .high then st.highRate else st.lowRate

/-- The wild target: the smallest of the phase rate, the wild max and the cap (R88). -/
def Context.wildTarget (c : Context) (p : Phase) : Nat :=
  match c.wildCap with
  | none => min (c.settings.phaseRate p) c.settings.wildMax
  | some cap => min (min (c.settings.phaseRate p) c.settings.wildMax) cap

/-- The cap is the operative term (R88). -/
def Context.capOperative (c : Context) (p : Phase) : Bool :=
  match c.wildCap with
  | none => false
  | some cap => decide (cap < c.settings.phaseRate p) && decide (cap < c.settings.wildMax)

/-- The wild set-point computed and the cap reported (R88, R109). -/
def Arm.wildSetpoint (x : Arm) (c : Context) : Arm :=
  { x with wildSet := rampToward x.wildSet (c.wildTarget x.phase) c.settings.rampLimit,
           ratio := { x.ratio with limited := c.capOperative x.phase } }

/-- The Arm Controller of a RUNNING arm at an arm frame closed event (R87, R88). -/
def Arm.runningStep (x : Arm) : Arm :=
  match x.ctx with
  | none => x
  | some c =>
    let x1 := x.evaluatePhase c
    if x1.state = .running then x1.wildSetpoint c else x1

/-- The current record at the entry to RUNNING (R133). -/
def CurrentRecord.started (r : CurrentRecord) (number frame : Nat) : CurrentRecord :=
  { r with state := .started, batchNumber := number, startFrame := frame }

/-- Entry to RUNNING (R82). -/
def Arm.enterRunning (x : Arm) (frame : Nat) : Arm :=
  { x with
    state := .running, batchNumber := nextBatch x.batchNumber, startFrame := frame,
    phase := (match x.ctx with | none => .startLow | some c => x.entryPhase c), wildSet := 0,
    ratio := { x.ratio with ctrlSet := 0 },
    current := x.current.map (fun r => r.started (nextBatch x.batchNumber) frame) }

/-! ## Start conditions and start windows -/

/-- The trunk is UP and every slot of the batch is UP (R81). -/
def State.devicesReady (s : State) (a : Fin 8) (c : Context) : Bool :=
  s.trunk.state == .up && (s.neededSlots a c).all (fun i => s.trunk.slots[i].up)

/-- The first start condition that fails (R81). -/
def State.startRefusal (s : State) (a : Fin 8) (c : Context) : Option Sense :=
  if s.rack.levels[a].runPermit = false then some .runPermitAbsent
  else if s.rack.levels[a].hold then some .holdActive
  else if s.lines.permit[a] = false then some .permitAbsent
  else if s.lines.estop then some .estop
  else if s.devicesReady a c = false then some .deviceAbsent
  else none

/-- The window without an arm; an open window whose set becomes empty closes (R84). -/
def StartWindow.without (w : StartWindow) (a : Fin 8) : StartWindow :=
  let rest := w.pending.filter (fun b => b ≠ a)
  if rest = [] then StartWindow.closed else { w with pending := rest }

/-- An arm leaves the start window of the lane in its snapshot (R84, R85, R86). -/
def State.leaveWindow (s : State) (a : Fin 8) : State :=
  match (s.arm a).ctx with
  | none => s
  | some c => s.setWindow c.settings.lane (s.windows[c.settings.lane].without a)

/-- An arm joins the start window of a lane, which opens or restarts (R83). -/
def State.joinWindow (s : State) (a : Fin 8) (lane : Fin 4) : State :=
  let w := s.windows[lane]
  s.setWindow lane
    { isOpen := true, remaining := s.config.startWindow,
      pending := if a ∈ w.pending then w.pending else w.pending ++ [a] }

/-- A START_PENDING arm returns to AUTHORIZED with a sense code (R84, R86). -/
def Arm.returned (x : Arm) (c : Sense) : Arm := { x with state := .authorized, sense := c }

/-- A START_PENDING arm returns on a permissive loss and leaves its window (R86). -/
def State.returnPending (s : State) (a : Fin 8) (c : Sense) : State :=
  (s.leaveWindow a).modArm a (fun x => x.returned c)

/-- A pending arm at the expiry of its window: RUNNING if it passes the start conditions, otherwise AUTHORIZED (R84). -/
def State.expirePending (s : State) (a : Fin 8) : State :=
  if (s.arm a).state = .startPending then
    match (s.arm a).ctx with
    | none => s
    | some c =>
      match s.startRefusal a c with
      | none => s.modArm a (fun x => x.enterRunning s.trunk.frameCounter)
      | some code => s.modArm a (fun x => x.returned code)
  else s

/-- A start window expires (R84). -/
def State.expireWindow (s : State) (lane : Fin 4) : State :=
  ((s.windows[lane].pending).foldl State.expirePending s).setWindow lane StartWindow.closed

/-- The window expires at its next tick (R84). -/
def StartWindow.expiresNext (w : StartWindow) : Bool := w.isOpen && decide (w.remaining ≤ 1)

/-- An open window's frames remaining falls by one; at 0 it expires (R84). -/
def State.tickWindow (s : State) (lane : Fin 4) : State :=
  if s.windows[lane].expiresNext then s.expireWindow lane
  else if s.windows[lane].isOpen then
    s.setWindow lane { s.windows[lane] with remaining := s.windows[lane].remaining - 1 }
  else s

/-! ## Hold, resume, settle -/

/-- HOLD set on a RUNNING arm (R89). -/
def Arm.enterHolding (x : Arm) : Arm :=
  { x with
    state := .holding, phase := .none, wildSet := 0, ratio := { x.ratio with ctrlSet := 0, limited := false },
    holdCount := satSucc 255 x.holdCount, holdTimer := 0, zeroCount := 0 }

/-- The four resume conditions hold (R91). -/
def State.mayResume (s : State) (a : Fin 8) : Bool :=
  !s.rack.levels[a].hold && s.rack.levels[a].runPermit && s.lines.permit[a] && !s.lines.estop

/-- Resume from HELD: RUNNING with its phase set anew and both set-points at 0 (R77, R91). -/
def Arm.resumed (x : Arm) : Arm :=
  { x with
    state := .running, phase := (match x.ctx with | none => .startLow | some c => x.entryPhase c), wildSet := 0,
    ratio := { x.ratio with ctrlSet := 0 } }

/-- The resume test of a HELD arm (R91). -/
def State.tryResume (s : State) (a : Fin 8) : State :=
  if (s.arm a).state = .held ∧ s.mayResume a then s.modArm a Arm.resumed else s

/-- The zero count after a frame's samples (R90). -/
def zeroNext (wild ctrl : Option Nat) (count : Nat) : Nat :=
  match wild, ctrl with
  | some w, some c => if w = 0 ∧ c = 0 then satSucc Config.settledFrames count else 0
  | _, _ => count

/-- The zero count of an arm after this frame (R90). -/
def State.zeroAfter (s : State) (a : Fin 8) : Nat :=
  zeroNext (s.meter a .wild).sample (s.meter a .ctrl).sample (s.arm a).zeroCount

/-- The hold limit in frames at the frame period in force (R70). -/
def DeviceConfig.holdFrames (c : DeviceConfig) : Nat := c.holdLimitS * 1000 / c.periodMs

/-! ## Finalize -/

/-- An overrun pushed into the close-ahead ring, the oldest of four dropped (R100). -/
def pushRing (ring : List Nat) (v : Nat) : List Nat := (ring ++ [v]).drop (ring.length + 1 - 4)

/-- The close-ahead ring after finalize (R99 step 5, R100). -/
def Arm.ringAfter (x : Arm) (c : Context) : List Nat :=
  if x.endReason = some .normal ∧ x.secondary = [] then
    pushRing x.ring (clampNat x.overrun 0 c.settings.closeAheadMax)
  else x.ring

/-- The state an arm enters at finalize: IDLE when no cause of the batch latches (R99 step 6). -/
def Arm.finalState (x : Arm) : ArmState :=
  if (x.endReason.map EndCause.latching).getD false || x.secondary.any EndCause.latching then .faulted else .idle

/-- The arm after finalize (R99, R104, R130, R136, R137). -/
def Arm.finalized (x : Arm) (a : Fin 8) (c : Context) (r : CurrentRecord) (endFrame : Nat) : Arm :=
  { x with
    state := x.finalState, phase := .none, ctx := none, ring := x.ringAfter c, current := none,
    last := some (x.completeRecord a c r endFrame), toggle := !x.toggle, entries := [],
    ratio := { x.ratio with mode := .none } }

/-- Finalize of a batch: the record is completed, a save is requested (R99). -/
def State.finalize (s : State) (a : Fin 8) : State :=
  match (s.arm a).ctx, (s.arm a).current with
  | some c, some r => (s.modArm a (fun x => x.finalized a c r s.trunk.frameCounter)).requestSave a
  | _, _ => s

/-- VALVE_LEAK recorded when the batch does not settle in time (R98). -/
def Arm.recordLeak (x : Arm) : Arm :=
  if x.endReason = some .normal ∧ x.secondary = [] then { x with endReason := some .valveLeak, sense := .valveLeak }
  else x.addSecondary .valveLeak

/-- The arm is settled: HOLDING enters HELD and makes the resume test, CLOSING finalizes (R90, R91, R98). -/
def State.settle (s : State) (a : Fin 8) : State :=
  match (s.arm a).state with
  | .holding => (s.modArm a (fun x => { x with state := .held })).tryResume a
  | .closing => s.finalize a
  | _ => s

/-- The hold timer's rise and test find the limit reached (R92). -/
def State.holdDue (s : State) (a : Fin 8) : Bool := decide (s.config.holdFrames ≤ (s.arm a).holdTimer + 1)

/-- The hold timer raised by one (R92). -/
def Arm.holdTick (x : Arm) : Arm := { x with holdTimer := x.holdTimer + 1 }

/-- The hold timer reaches the limit (R92). -/
def State.holdExpire (s : State) (a : Fin 8) : State := s.modArm a (fun x => x.holdTick.raiseCause .holdTimeout)

/-- The settle age's rise and test find the limit reached (R98). -/
def State.settleDue (s : State) (a : Fin 8) : Bool := decide (s.config.settleLimit ≤ (s.arm a).settleAge + 1)

/-- The settle age reaches the limit: VALVE_LEAK, and the batch finalizes (R98). -/
def State.settleExpire (s : State) (a : Fin 8) : State :=
  (s.modArm a (fun x => { x with settleAge := x.settleAge + 1 }.recordLeak)).finalize a

/-- The zero count of this frame stored (R90). -/
def State.storeZero (s : State) (a : Fin 8) : State := s.modArm a (fun x => { x with zeroCount := s.zeroAfter a })

/-- The zero count after this frame settles the arm (R90). -/
def State.settleReached (s : State) (a : Fin 8) : Bool := decide (Config.settledFrames ≤ s.zeroAfter a)

/-- The Arm Controller of a HOLDING arm at an arm frame closed event: timer first, then the zero count (R90, R92). -/
def State.holdingStep (s : State) (a : Fin 8) : State :=
  if s.holdDue a then s.holdExpire a
  else if s.settleReached a then ((s.modArm a Arm.holdTick).storeZero a).settle a
  else (s.modArm a Arm.holdTick).storeZero a

/-- The Arm Controller of a HELD arm at an arm frame closed event (R92). -/
def State.heldStep (s : State) (a : Fin 8) : State :=
  if s.holdDue a then s.holdExpire a else s.modArm a Arm.holdTick

/-- The Arm Controller of a CLOSING arm at an arm frame closed event (R98). -/
def State.closingStep (s : State) (a : Fin 8) : State :=
  if s.settleReached a then (s.storeZero a).settle a
  else if s.settleDue a then (s.storeZero a).settleExpire a
  else (s.storeZero a).modArm a (fun x => { x with settleAge := x.settleAge + 1 })

/-- The Arm Controller at an arm frame closed event (R87, R90, R92, R98). -/
def State.armAct (s : State) (a : Fin 8) : State :=
  match (s.arm a).state with
  | .running => s.modArm a Arm.runningStep
  | .holding => s.holdingStep a
  | .held => s.heldStep a
  | .closing => s.closingStep a
  | .idle | .authorized | .startPending | .faulted => s

/-! ## The arm frame closed event -/

/-- The three blocks that act at an arm frame closed event (R77, R95). -/
inductive Block where
  | armController | ratioController | additiveScheduler
  deriving DecidableEq, Repr

/-- One block acts; `received` is the arm state in which the arm received the event. -/
def State.runBlock (a : Fin 8) (received : ArmState) (s : State) : Block → State
  | .armController => s.armAct a
  | .ratioController => s.modArm a (fun x => x.ratioAct (received == .running) (s.meter a .wild).flow)
  | .additiveScheduler => s.modArm a Arm.additivePass

/-- The six orders of the three blocks. -/
def blockOrders : List (List Block) :=
  [[.armController, .ratioController, .additiveScheduler], [.armController, .additiveScheduler, .ratioController],
   [.ratioController, .armController, .additiveScheduler], [.ratioController, .additiveScheduler, .armController],
   [.additiveScheduler, .armController, .ratioController], [.additiveScheduler, .ratioController, .armController]]

/-- The order the n-th free choice names (log entry 3). -/
def freeOrder (n : Nat) : List Block :=
  blockOrders.getD (Config.blockOrder n % 6) [.armController, .ratioController, .additiveScheduler]

/-- The blocks act in a given order. -/
def State.runBlocks (s : State) (a : Fin 8) (order : List Block) : State :=
  order.foldl (State.runBlock a (s.arm a).state) s

/-- HOLDING and HELD counted as one, for telling whether a block has moved the batch. -/
def ArmState.stage : ArmState → Nat
  | .held => ArmState.holding.code
  | st => st.code

/-- A block acting alone neither moves the batch to another stage nor adds a cause. -/
def State.blockQuiet (s : State) (a : Fin 8) (b : Block) : Bool :=
  let t := s.runBlock a (s.arm a).state b
  (t.arm a).state.stage == (s.arm a).state.stage && (t.arm a).secondary == (s.arm a).secondary

/-- No block moves the batch, so that the order of the three cannot show (log entry 3). -/
def State.blocksQuiet (s : State) (a : Fin 8) : Bool :=
  [Block.armController, .ratioController, .additiveScheduler].all (s.blockQuiet a)

/-- Arm frame closed: the three blocks of the arm act. Where the order can show it is free (R77, R95, log entry 3). An
arm without an open batch has nothing to do at the event (R87, R104, R120). -/
def State.armFrameClosed (s : State) (a : Fin 8) : State :=
  if (s.arm a).isOpen = false then s
  else if s.blocksQuiet a then s.runBlocks a [.armController, .ratioController, .additiveScheduler]
  else { s with choices := s.choices + 1 }.runBlocks a (freeOrder s.choices)

/-! ## Levels and lines -/

/-- A dropped RUN_PERMIT reaches the Arm Controller (R86, R93). -/
def State.runPermitDropped (s : State) (a : Fin 8) (cause : DropCause) : State :=
  if (s.arm a).state = .startPending then s.returnPending a .runPermitAbsent
  else s.modArm a (fun x => x.raiseCause (match cause with | .rack => .rackEnd | .link => .linkLost))

/-- A changed HOLD reaches the Arm Controller (R89, R91). -/
def State.holdChanged (s : State) (a : Fin 8) (set : Bool) : State :=
  if set then (if (s.arm a).state = .running then s.modArm a Arm.enterHolding else s) else s.tryResume a

/-- The levels of an arm have changed from `old` to those held: a drop of RUN_PERMIT is judged first, so that a frame
that changes both levels ends the batch (R4, R93). -/
def State.levelsChanged (s : State) (a : Fin 8) (old : Levels) : State :=
  let new := s.rack.levels[a]
  let s1 := if old.runPermit && !new.runPermit then s.runPermitDropped a new.dropCause else s
  if old.hold != new.hold then s1.holdChanged a new.hold else s1

/-- A permissive is lost: a pending arm returns, a batch ends with the cause (R86, R94). -/
def State.permissiveLost (s : State) (a : Fin 8) (code : Sense) (cause : EndCause) : State :=
  if (s.arm a).state = .startPending then s.returnPending a code else s.modArm a (fun x => x.raiseCause cause)

/-- The PERMIT line of an arm takes a level (R94). -/
def State.permitLine (s : State) (a : Fin 8) (active : Bool) : State :=
  let s1 := { s with lines := { s.lines with permit := s.lines.permit.set a active } }
  if s.powered && s.lines.permit[a] && !active then s1.permissiveLost a .permitAbsent .permitLost else s1

/-- The ESTOP line takes a level (R94). -/
def State.estopLine (s : State) (active : Bool) : State :=
  let s1 := { s with lines := { s.lines with estop := active } }
  if s.powered && active && !s.lines.estop then
    allArms.foldl (fun t a => t.permissiveLost a .estop .estop) s1
  else s1

/-- The CERT switch takes a position, read at later decisions (R155). -/
def State.certLine (s : State) (unlocked : Bool) : State :=
  { s with lines := { s.lines with certUnlocked := unlocked } }

/-! ## Unauthorized flow (R102) -/

/-- An indicated volume added to the accumulator (R102). -/
def Arm.accrue (x : Arm) (iv : Nat) : Arm :=
  { x with unauthorized := min Config.unauthorizedCeiling (x.unauthorized + iv) }

/-- The increment of an arm without a batch (R102). -/
def State.accrueUnauthorized (s : State) (a : Fin 8) (iv : Nat) : State :=
  let s1 := s.modArm a (fun x => x.accrue iv)
  if s.config.unauthorizedL * 1000 ≤ (s1.arm a).unauthorized then
    match (s.arm a).state with
    | .idle =>
      (s1.modArm a (fun x => { x with state := .faulted, sense := .unauthorizedFlow })).requestSave a
    | .faulted => s1.modArm a (fun x => x.note .unauthorizedFlow)
    | _ => s1
  else s1

/-! ## Meanings -/

/-- START_WINDOW_EXPIRY (R84). Without a window whose count reaches 0 the event does not occur (log entry 2). -/
def execStartWindowExpiry (lane : Fin 4) (s : State) : Host.Outcome State Fault Refusal :=
  .next (s.whenPowered (fun t => if t.windows[lane].expiresNext then t.expireWindow lane else t))

/-- HOLD_TIMEOUT (R92): the timer's rise and its test, when it reaches the limit (log entry 2). -/
def execHoldTimeout (a : Fin 8) (s : State) : Host.Outcome State Fault Refusal :=
  .next (s.whenPowered (fun t =>
    if ((t.arm a).state = .holding ∨ (t.arm a).state = .held) ∧ t.holdDue a then t.holdExpire a else t))

/-- ARM_SETTLED (R90, R98): the zero count's update and its test, when it reaches 20 (log entry 2). -/
def execArmSettled (a : Fin 8) (s : State) : Host.Outcome State Fault Refusal :=
  .next (s.whenPowered (fun t =>
    if ((t.arm a).state = .holding ∨ (t.arm a).state = .closing) ∧ t.settleReached a then (t.storeZero a).settle a
    else t))

/-- SETTLE_LIMIT (R98): the settle age's rise and its test, when it reaches the limit of an arm not settled
(log entry 2). -/
def execSettleLimit (a : Fin 8) (s : State) : Host.Outcome State Fault Refusal :=
  .next (s.whenPowered (fun t =>
    if (t.arm a).state = .closing ∧ t.settleReached a = false ∧ t.settleDue a then t.settleExpire a else t))

/-- RATIO_FAULT (R112, R113): the band check of a RUNNING arm in mode RATIO, when its count reaches the persistence
(log entry 2). -/
def execRatioFault (a : Fin 8) (s : State) : Host.Outcome State Fault Refusal :=
  .next (s.whenPowered (fun t =>
    match (t.arm a).ctx with
    | none => t
    | some c =>
      if (t.arm a).state = .running ∧ (t.arm a).ratio.mode = .ratio ∧ (t.arm a).bandChecked c ∧
          c.recipe.persistence ≤ (t.arm a).bandCount c then
        t.modArm a (fun x => x.bandCheck c)
      else t))

/-- An entry's outstanding shot is ended at the next rise of its age (R125). -/
def Arm.shotDue (x : Arm) (k : Nat) : Bool :=
  match x.entries[k]? with
  | none => false
  | some e =>
    match e.shot with
    | none => false
    | some sh => decide (Config.answerFrames ≤ sh.age + 1)

/-- SHOT_TIMEOUT (R125): the age's rise and its test, when it reaches 100 (log entry 2). -/
def execShotTimeout (a : Fin 8) (k : Fin 4) (s : State) : Host.Outcome State Fault Refusal :=
  .next (s.whenPowered (fun t => if (t.arm a).shotDue k.val then t.modArm a (fun x => x.ageShot k.val) else t))

/-- TEMP_LOST (R51): raised when the meter's temperature age is at the hold limit or above (log entry 2). -/
def execTempLost (a : Fin 8) (p : StreamPos) (s : State) : Host.Outcome State Fault Refusal :=
  .next (s.whenPowered (fun t =>
    if t.config.tempHoldLimit ≤ (t.meter a p).age then t.modArm a (fun x => x.raiseCause .tempLost) else t))

/-- PERMIT_LINE_CHANGE (R94). -/
def execPermitLineChange (a : Fin 8) (active : Bool) (s : State) : Host.Outcome State Fault Refusal :=
  .next (s.permitLine a active)

/-- ESTOP_CHANGE (R94). -/
def execEstopChange (active : Bool) (s : State) : Host.Outcome State Fault Refusal := .next (s.estopLine active)

/-- CERT_CHANGE (R155). -/
def execCertChange (unlocked : Bool) (s : State) : Host.Outcome State Fault Refusal := .next (s.certLine unlocked)

end Sys2Proof.Machine
end

