-- ==== Sys2Proof/Machine/Metering.lean ====
section
/-! DEFINITION. Metering arithmetic (spec 03): a sample through plausibility, indicated, gross and net volume, the flow
window, the temperature, the totalizers, and the settlement of a meter for a frame. -/

namespace Sys2Proof.Machine

/-! ## Flow, factor, temperature -/

/-- The flow rate of a window sum (R47). -/
def flowOf (sum periodMs : Nat) : Nat := min 65535 (sum * 60 / (8 * periodMs))

/-- An entry put into the flow window and Q recomputed (R47). -/
def Meter.pushFlow (m : Meter) (iv periodMs : Nat) : Meter :=
  let w := m.window.drop 1 ++ [iv]
  { m with window := w, flow := flowOf w.sum periodMs }

/-- Interpolation on a segment, the quotient truncated toward zero (R48). -/
def interpolate (lo hi : CurvePoint) (q : Nat) : Nat :=
  ((lo.factor : Int) +
    Int.tdiv (((hi.factor : Int) - lo.factor) * ((q : Int) - lo.flow)) ((hi.flow : Int) - lo.flow)).toNat

/-- The factor at a flow at or above the first point of a curve (R48). -/
def segmentFactor (lo : CurvePoint) (q : Nat) : List CurvePoint → Nat
  | [] => lo.factor
  | hi :: rest => if q < hi.flow then interpolate lo hi q else segmentFactor hi q rest

/-- The meter factor of a curve at a flow; 100,000 for an EMPTY curve (R48). -/
def curveFactor (points : List CurvePoint) (q : Nat) : Nat :=
  match points with
  | [] => 100000
  | p :: rest => if q ≤ p.flow then p.factor else segmentFactor p q rest

/-- The temperature of a sample is valid (R50). -/
def tempValid (t : Int) (status : MeterStatus) : Bool :=
  decide (-5000 ≤ t) && decide (t ≤ 7000) && (status != .fail)

/-- The temperature of a processed sample (R50). -/
def Meter.takeTemp (m : Meter) (t : Int) (status : MeterStatus) : Meter :=
  if tempValid t status then { m with temp := some t, age := 0 }
  else { m with age := satSucc Config.ageCeiling m.age }

/-- The temperature used for correction (R50, R52). -/
def Meter.tempUsed (m : Meter) : Int := m.temp.getD 1500

/-- The correction for the temperature of the liquid (R52). -/
def ctl (alpha : Nat) (t : Int) : Nat := (clampInt (100000 - roundDiv (alpha * (t - 1500)) 1000) 90000 110000).toNat

/-! ## Counting -/

/-- An increment set (R55). -/
structure Increment where
  iv : Nat
  gv : Nat
  nv : Nat
  temp : Int
  factor : Nat
  deriving DecidableEq, Repr

/-- The constants a meter converts with (R41) and the period its frame adopted. -/
structure MeterConstants where
  k10 : Nat
  points : List CurvePoint
  qmax : Nat
  alpha : Nat
  periodMs : Nat
  deriving DecidableEq, Repr

/-- The plausibility limit for a gap (R45). -/
def MeterConstants.limit (k : MeterConstants) (gap : Nat) : Nat :=
  ceilDiv (k.qmax * 3 * k.k10 * k.periodMs) 1200000 * gap

/-- The pulse delta (R44). -/
def pulseDelta (new last : Nat) : Nat := (new + 65536 - last) % 65536

/-- The frame gap (R44). -/
def frameGap (n last : Nat) : Nat := (n + Config.counterModulus - last) % Config.counterModulus

/-- A totalizer pair after a counted sample (R56). -/
def MeterTotals.add (t : MeterTotals) (gv nv : Nat) : MeterTotals :=
  { grossL := (t.grossL + (t.grossMl + gv) / 1000) % 1000000000, grossMl := (t.grossMl + gv) % 1000,
    netL := (t.netL + (t.netMl + nv) / 1000) % 1000000000, netMl := (t.netMl + nv) % 1000 }

/-- A counted delta converted: indicated, gross and net volume with their residues, the flow, the factor and the
totalizers (R46 to R49, R52, R53, R56). -/
def Meter.convert (m : Meter) (k : MeterConstants) (delta : Nat) : Meter × Increment :=
  let pulses := delta * 10000 + m.pulseRes
  let iv := pulses / k.k10
  let m1 := m.pushFlow iv k.periodMs
  let mf := curveFactor k.points m1.flow
  let gross := iv * mf + m.grossRes
  let gv := gross / 100000
  let net := gv * ctl k.alpha m.tempUsed + m.netRes
  let nv := net / 100000
  ({ m1 with pulseRes := pulses % k.k10, grossRes := gross % 100000, netRes := net % 100000, factor := mf,
             totals := m.totals.add gv nv, sample := some iv },
   { iv := iv, gv := gv, nv := nv, temp := m.tempUsed, factor := mf })

/-- A processed sample that is not counted, a seed or an implausible delta: zero increments, 0 into the flow window
(R43, R45, R55). -/
def Meter.zeroSample (m : Meter) (periodMs : Nat) : Meter × Increment :=
  ({ m.pushFlow 0 periodMs with sample := some 0 },
   { iv := 0, gv := 0, nv := 0, temp := m.tempUsed, factor := m.factor })

/-- The last accepted total, the last valid frame and the lost mark after a processed sample (R43, R44). -/
def Meter.accepted (m : Meter) (total n : Nat) : Meter :=
  { m with lastTotal := some total, lastFrame := n, lost := false }

/-- A meter word's content as handed over (R24). -/
structure MeterWord where
  total : Nat
  temp : Int
  status : MeterStatus
  deriving DecidableEq, Repr

/-- The meter is converting (R41). -/
def State.converting (s : State) (a : Fin 8) : Bool := (s.arm a).isOpen || (s.armEntry a).enabled

/-- The constants of a meter (R41). -/
def State.constants (s : State) (a : Fin 8) (p : StreamPos) : MeterConstants :=
  let e := s.armEntry a
  let ctx := if (s.arm a).isOpen then (s.arm a).ctx else none
  { k10 := e.k10 p, points := s.tables.curves[e.curve p].work,
    qmax := (match ctx with | some c => c.settings.maxFlow p | none => e.settings.maxFlow p),
    alpha := (match ctx with | some c => c.recipe.alpha p | none => 0), periodMs := s.timebase.periodMs }

/-- A processed sample is a seed (R43). -/
def State.isSeed (s : State) (a : Fin 8) (p : StreamPos) : Bool :=
  (s.meter a p).lastTotal.isNone || ((s.meter a p).lost && !(s.arm a).isOpen) || !s.converting a

/-- The delta of a sample and the limit it is held against (R44, R45). -/
def State.implausible (s : State) (a : Fin 8) (p : StreamPos) (w : MeterWord) : Bool :=
  decide ((s.constants a p).limit (frameGap s.trunk.frameCounter (s.meter a p).lastFrame) <
    pulseDelta w.total ((s.meter a p).lastTotal.getD 0))

/-- A processed sample through the arithmetic: the meter after it and the increment set handed on (R43 to R53). -/
def State.processMeter (s : State) (a : Fin 8) (p : StreamPos) (w : MeterWord) : Meter × Increment :=
  let m := s.meter a p
  let m1 := (m.takeTemp w.temp w.status).accepted w.total s.trunk.frameCounter
  if s.isSeed a p || s.implausible a p w then m1.zeroSample s.timebase.periodMs
  else m1.convert (s.constants a p) (pulseDelta w.total (m.lastTotal.getD 0))

/-- An increment set added to a stream account (R78). -/
def Account.add (acc : Account) (i : Increment) : Account :=
  { gross := acc.gross + i.gv, net := acc.net + i.nv, weight := acc.weight + i.temp * i.gv, lastFactor := i.factor }

/-- The Arm Controller routes an increment set by the arm state (R78). -/
def State.routeIncrement (s : State) (a : Fin 8) (p : StreamPos) (i : Increment) : State :=
  if (s.arm a).isOpen then s.modArm a (fun x => x.setAccount p ((x.account p).add i))
  else s.accrueUnauthorized a i.iv

/-- A processed sample: the meter, the hand-over, then the causes of the sample (R42, R45, R54, R55). DESIGN CHOICE (log
entry 26): the meter's totalizers take the sample (R56) before the increment set is handed over, so a totalizer save that
the hand-over begins at once (R102, R143) includes it. -/
def State.processSample (s : State) (a : Fin 8) (p : StreamPos) (w : MeterWord) : State :=
  let r := s.processMeter a p w
  let s1 := (s.setMeter a p r.1).routeIncrement a p r.2
  let s2 := if !s.isSeed a p && s.implausible a p w then s1.modArm a (fun x => x.raiseCause .pulseImplausible) else s1
  if w.status = .fail then s2.modArm a (fun x => x.raiseCause .deviceFault) else s2

/-- A valid meter word handed over: the first of the frame is processed, any further one is dropped (R42). -/
def State.meterSample (s : State) (a : Fin 8) (p : StreamPos) (w : MeterWord) : State :=
  if (s.meter a p).sample = none then s.processSample a p w else s

/-! ## Settlement -/

/-- The meter settled for the frame (R42, R47, R50). -/
def Meter.settled (m : Meter) (n periodMs : Nat) : Meter :=
  match m.sample with
  | none => { m.pushFlow 0 periodMs with age := satSucc Config.ageCeiling m.age, settledFrame := n }
  | some _ => { m with settledFrame := n }

/-- Both meters of an arm are settled for the frame in progress (R57). -/
def State.bothSettled (s : State) (a : Fin 8) : Bool :=
  (s.meter a .wild).settledFrame == s.trunk.frameCounter && (s.meter a .ctrl).settledFrame == s.trunk.frameCounter

/-- A meter settles for the frame in progress: the temperature hold limit is tested, and arm frame closed follows when
both meters of the arm are settled (R42, R51, R57). -/
def State.settleMeter (s : State) (a : Fin 8) (p : StreamPos) : State :=
  let s1 := s.modMeter a p (fun m => m.settled s.trunk.frameCounter s.timebase.periodMs)
  let s2 :=
    if s.config.tempHoldLimit ≤ (s1.meter a p).age then s1.modArm a (fun x => x.raiseCause .tempLost) else s1
  if s2.bothSettled a then s2.armFrameClosed a else s2

/-- The lost mark set by a slot-lost event (R43). -/
def Meter.marked (m : Meter) : Meter := { m with lost := true }

end Sys2Proof.Machine
end

