-- ==== Sys2Proof/Machine/Responses.lean ====
section
/-! DEFINITION. Responses of the management channel (R14) and the sense codes of refusals (R139, R140). -/

namespace Sys2Proof.Machine

/-- A response record (spec 01 section 1.1). -/
def responseRecord (code : Nat) (refused : Bool) (sense : Sense) (flags : Nat) (payload : List Byte) : List Byte :=
  field 1 code ++ field 1 (boolNum refused) ++ field 1 sense.code ++ field 1 flags ++ field 1 payload.length ++ payload

/-- A response is fixed for sending: it carries REQUEST_DISCARDED if the discard flag is set, and clears it (R14). -/
def RackLink.fixResponse (r : RackLink) (code : Nat) (refused : Bool) (sense : Sense) (truncated : Bool)
    (payload : List Byte) (thenReset : Bool) : RackLink :=
  { r with
    transaction :=
      .sending (responseRecord code refused sense (responseFlags r.discard truncated) payload) 0 thenReset,
    discard := false }

/-- An accepted request's response (R14, R140). -/
def State.respond (s : State) (code : Nat) (payload : List Byte) (thenReset : Bool) : State :=
  s.modRack (fun r => r.fixResponse code false .none false payload thenReset)

/-- The sense code of a refusal is recorded for the arm named, or for the device (R139, R140). -/
def State.recordRefusal (s : State) (arm : Nat) (code : Sense) : State :=
  if h : arm < 8 then s.modArm ⟨arm, h⟩ (fun x => x.note code) else s.noteDevice code

/-- A refused request: the sense code recorded and the response fixed (R13, R139, R140). -/
def State.refuse (s : State) (request arm : Nat) (code : Sense) : State :=
  (s.recordRefusal arm code).modRack (fun r => r.fixResponse request true code false [] false)

end Sys2Proof.Machine
end

