-- ==== Sys2Proof/Machine/Service.lean ====
section
/-! DEFINITION. Field device service (spec 10): the transfer of a request and its reply through a slot. -/

namespace Sys2Proof.Machine

/-- A transfer in REQUEST or REPLY is in flight (R162). -/
def Transfer.inFlight (t : Transfer) : Bool := t.phase != .idle

/-- The transfer at the acceptance of a SERVICE (R163). -/
def Transfer.accepted (slot : Fin 64) (write : Bool) (request : List Byte) : Transfer :=
  { phase := .request, slot := slot, write := write, request := request, classSent := false, next := 0, reply := [],
    count := 0, truncated := false, age := 0, wanted := true }

/-! ## Request bytes and reply requests (R164) -/

/-- The service byte and flags of the transfer's slot at an emission (R164). -/
def Transfer.fields (t : Transfer) : Nat × ServiceFlags :=
  match t.phase with
  | .idle => (0, ServiceFlags.clear)
  | .request =>
    if t.classSent then
      ((t.request.getD t.next 0).toNat,
       { start := false, fin := decide (t.request.length ≤ t.next + 1), active := true })
    else (boolNum t.write, { start := true, fin := false, active := true })
  | .reply => (t.count % 256, { start := false, fin := false, active := true })

/-- The transfer after an emission (R164). -/
def Transfer.advance (t : Transfer) : Transfer :=
  match t.phase with
  | .request =>
    if t.classSent then
      if t.request.length ≤ t.next + 1 then { t with phase := .reply, next := t.next + 1, age := 0 }
      else { t with next := t.next + 1 }
    else { t with classSent := true }
  | .idle | .reply => t

/-- The service fields of a slot at an emission: those of the transfer in flight through it, if any (R20). -/
def State.serviceFields (s : State) (i : Fin 64) : Nat × ServiceFlags :=
  match allArms.find? (fun a => s.transfers[a].inFlight && s.transfers[a].slot == i) with
  | none => (0, ServiceFlags.clear)
  | some a => s.transfers[a].fields

/-- Every transfer after an emission (R164). -/
def State.advanceTransfers (s : State) : State :=
  { s with transfers := Vector.ofFn (fun a => s.transfers[a].advance) }

/-! ## Ends of transfers (R165, R166) -/

/-- The transfer ends with its reply complete: the response is released if it is still wanted (R165). -/
def State.releaseReply (s : State) (a : Fin 8) (t : Transfer) : State :=
  let s1 := s.setTransfer a Transfer.released
  if t.wanted then
    s1.modRack (fun r => r.fixResponse RequestCode.service.code false .none t.truncated t.reply false)
  else s1

/-- The transfer ends without a reply: a wanted response is released with the refusal's code, which becomes the arm's
sense code (R139, R166). -/
def State.abandonTransfer (s : State) (a : Fin 8) (code : Sense) : State :=
  let s1 := s.setTransfer a Transfer.released
  if s.transfers[a].wanted then s1.refuse RequestCode.service.code a.val code else s1

/-- The transfer with a reply byte taken (R165). -/
def Transfer.takeByte (t : Transfer) (b : Byte) : Transfer :=
  if t.count < 32 then { t with reply := t.reply ++ [b], count := t.count + 1 }
  else { t with truncated := true, count := t.count + 1 }

/-- The service fields of a valid word of an assigned slot, handed to the Service Relay for the slot's arm (R24, R165). -/
def State.serviceWord (s : State) (a : Fin 8) (i : Fin 64) (b : Byte) (f : ServiceFlags) : State :=
  let t := s.transfers[a]
  if t.phase = .reply ∧ t.slot = i ∧ f.active then
    if f.fin then s.releaseReply a (t.takeByte b) else s.setTransfer a (t.takeByte b)
  else s

/-- A slot-lost event reaches the Service Relay for the slot's arm (R166). -/
def State.serviceSlotLost (s : State) (a : Fin 8) (i : Fin 64) : State :=
  if s.transfers[a].inFlight ∧ s.transfers[a].slot = i then s.abandonTransfer a .deviceAbsent else s

/-- The reply age reaches 100 at its next rise (R166). -/
def Transfer.timesOut (t : Transfer) : Bool := t.phase == .reply && decide (Config.answerFrames ≤ t.age + 1)

/-- A transfer at an answer interval end (R165, R166). -/
def State.serviceTick (s : State) (a : Fin 8) : State :=
  let t := s.transfers[a]
  if t.timesOut then s.abandonTransfer a .serviceTimeout
  else if t.phase = .reply then s.setTransfer a { t with age := t.age + 1 }
  else s

/-- The response of a transfer is no longer wanted (R10, R166). -/
def Transfer.unwanted (t : Transfer) : Transfer := { t with wanted := false }

/-- SERVICE_TIMEOUT (R166): the age's rise and its test, when it reaches 100 (log entry 2). -/
def execServiceTimeout (a : Fin 8) (s : State) : Host.Outcome State Fault Refusal :=
  .next (s.whenPowered (fun t => if t.transfers[a].timesOut then t.abandonTransfer a .serviceTimeout else t))

end Sys2Proof.Machine
end

