-- ==== Sys2Proof/Machine/Trunk.lean ====
section
/-! DEFINITION. The field trunk (spec 02): emission of a frame, closing of an answer window, slot and trunk state, the
answer interval end, the echo test. -/

namespace Sys2Proof.Machine

/-! ## Events of slots and of the trunk -/

/-- The batch of an arm needs a slot of a role (R74, R95). -/
def Arm.needsRole (x : Arm) (r : Role) : Bool :=
  match x.ctx with
  | none => false
  | some c => (neededRoles c.recipe.additives).contains r

/-- The Arm Controller at a slot-lost event (R95). -/
def Arm.slotLost (x : Arm) (r : Role) : Arm := if x.needsRole r then x.raiseCause .deviceLost else x

/-- A slot-lost event: to the Arm Controller, to the Service Relay, and to the consumer of the slot's role (R26, R30,
R43, R95, R131, R166). -/
def State.slotLostEvent (s : State) (i : Fin 64) (a : Fin 8) (r : Role) : State :=
  let s1 := (s.modArm a (fun x => x.slotLost r)).serviceSlotLost a i
  match r.meterPos with
  | none => s1
  | some p => s1.modMeter a p Meter.marked

/-- The state with one slot's receive state replaced. -/
def State.setSlot (s : State) (i : Fin 64) (x : SlotRx) : State :=
  s.modTrunk (fun t => { t with slots := t.slots.set i x })

/-- A receive state reset by a reset or a change of assignment (R30, R40). -/
def SlotRx.unassigned : SlotRx := { toggle := none, invalids := Config.lossFrames, up := false }

/-- The slot goes LOST at an invalid outcome while UP (R26). -/
def SlotRx.losesNext (x : SlotRx) : Bool := x.up && decide (Config.lossFrames ≤ x.invalids + 1)

/-- A slot goes LOST, and the slot-lost events are raised (R26). -/
def State.loseSlot (s : State) (i : Fin 64) (a : Fin 8) (r : Role) : State :=
  (s.setSlot i { s.trunk.slots[i] with invalids := Config.lossFrames, up := false }).slotLostEvent i a r

/-- An invalid word or outcome in an assigned slot (R26). -/
def State.slotInvalid (s : State) (i : Fin 64) (a : Fin 8) (r : Role) : State :=
  let x := s.trunk.slots[i]
  if x.losesNext then s.loseSlot i a r
  else if x.up then s.setSlot i { x with invalids := x.invalids + 1 }
  else s.setSlot i { x with invalids := Config.lossFrames }

/-- A valid word in an assigned slot: receive state, slot-up, silence count, trunk-up (R25, R26, R27). Slot-up and
trunk-up events reopen nothing (R95). -/
def State.slotValid (s : State) (i : Fin 64) (toggle : Bool) : State :=
  (s.setSlot i { toggle := some toggle, invalids := 0, up := true }).modTrunk (fun t =>
    { t with silence := 0, validTaken := true, state := if t.state = .down then .up else t.state })

/-- A trunk-down event: TRUNK_LOST at every Arm Controller, and both trunk error counters cleared (R27, R28, R95). -/
def State.trunkDownEvent (s : State) : State :=
  allArms.foldl (fun t a => t.modArm a (fun x => x.raiseCause .trunkLost))
    (s.modTrunk (fun t => { t with state := .down, crcErrors := 0, staleErrors := 0 }))

/-! ## Classification and hand-over -/

/-- What the close of a window finds in an assigned slot (R23). -/
inductive WindowOutcome where
  | valid | crc | stale | silent
  deriving DecidableEq, Repr

/-- The classification of a window's outcome (R21, R23). A word has exactly 8 bytes. -/
def classifyWord (last : Option Bool) (w : List Byte) : WindowOutcome :=
  if w.length ≠ 8 then .silent
  else if wordCrcGood w = false then .crc
  else if last = some (wordToggle w) then .stale
  else .valid

/-- The trunk error counters after a classification (R23, R28). -/
def Trunk.countOutcome (t : Trunk) : WindowOutcome → Trunk
  | .crc => { t with crcErrors := satSucc 255 t.crcErrors }
  | .stale => { t with staleErrors := satSucc 255 t.staleErrors }
  | .valid | .silent => t

/-- The content of a valid word handed to the consumer of its role (R24). -/
def State.handOver (s : State) (a : Fin 8) (r : Role) (w : List Byte) : State :=
  match r with
  | .unused => s
  | .wildMeter => s.meterSample a .wild { total := wordTotal w, temp := wordTemp w, status := wordMeterStatus w }
  | .ctrlMeter => s.meterSample a .ctrl { total := wordTotal w, temp := wordTemp w, status := wordMeterStatus w }
  | .wildValve | .ctrlValve => if wordValveFault w then s.modArm a (fun x => x.raiseCause .deviceFault) else s
  | .inj k => s.modArm a (fun x => x.injectorWord k (wordInjectorStatus w) (wordEcho w) (wordMeasured w))

/-- A slot of the same arm and role closes its window later in the frame (R42). -/
def State.laterSlot (s : State) (i : Fin 64) (a : Fin 8) (r : Role) : Bool :=
  (List.finRange 64).any (fun j => decide (i.val < j.val) && s.frameAssignment j == some (a, r))

/-- The settlement of a meter at the close of the window of the last of its slots (R42). -/
def State.settleAtClose (s : State) (i : Fin 64) (a : Fin 8) (r : Role) : State :=
  match r.meterPos with
  | none => s
  | some p => if s.laterSlot i a r then s else s.settleMeter a p

/-- The test frame fails at this slot (R37). -/
def testFails (o : WindowOutcome) (pattern : Nat) (w : List Byte) : Bool :=
  o != .valid || wordPattern w != pattern

/-- The echo test notes a slot's outcome (R37). -/
def Trunk.noteTest (t : Trunk) (i : Fin 64) (o : WindowOutcome) (w : List Byte) : Trunk :=
  { t with testFailed :=
      t.testFailed || (t.testFrame && testFails o (testPattern t.frameCounter i.val) w) }

/-- The window of an assigned slot closes: classified, counted, receive state, hand-over, settlement (R21 to R28). -/
def State.closeAssigned (s : State) (i : Fin 64) (a : Fin 8) (r : Role) (w : List Byte) : State :=
  let o := classifyWord s.trunk.slots[i].toggle w
  let s1 := s.modTrunk (fun t => (t.countOutcome o).noteTest i o w)
  let s2 :=
    if o = .valid then
      let v := s1.slotValid i (wordToggle w)
      let h := if s.trunk.testFrame then v else v.handOver a r w
      h.serviceWord a i (wordServiceByte w) (wordService w)
    else s1.slotInvalid i a r
  s2.settleAtClose i a r

/-! ## Answer interval end -/

/-- The trunk silence count at an answer interval end, and the trunk going DOWN (R27). -/
def State.silenceStep (s : State) : State :=
  if s.trunk.validTaken then s
  else
    let s1 := s.modTrunk (fun t => { t with silence := satSucc Config.lossFrames t.silence })
    if s.trunk.state = .up ∧ s1.trunk.silence = Config.lossFrames then s1.trunkDownEvent else s1

/-- The result of a test frame (R37). -/
def Trunk.testResult (t : Trunk) : Trunk :=
  if t.testFrame && t.testFailed then { t with test := { t.test with errors := satSucc 65535 t.test.errors } } else t

/-- The echo test has run out its frames (R38). -/
def Trunk.testOver (t : Trunk) : Bool := t.test.state == .running && t.test.remaining == 0

/-- The echo test ends: COMPLETE, and the trunk UP or DOWN by its silence count (R38). -/
def State.endTest (s : State) : State :=
  let s1 := s.modTrunk (fun t => { t with test := { t.test with state := .complete } })
  if s.trunk.silence < Config.lossFrames then s1.modTrunk (fun t => { t with state := .up }) else s1.trunkDownEvent

/-- The result of a test frame, and the end of a test whose frames have run out (R37, R38). -/
def State.testStep (s : State) : State :=
  let s1 := s.modTrunk Trunk.testResult
  if s1.trunk.testOver then s1.endTest else s1

/-- No slot is assigned to a meter in the frame in progress (R42). -/
def State.meterUnassigned (s : State) (a : Fin 8) (p : StreamPos) : Bool :=
  slotsOf s.trunk.slotCount s.trunk.table a (StreamPos.meterRole p) == []

/-- A meter without a slot settles at the answer interval end (R42). -/
def State.settleUnassigned (s : State) (a : Fin 8) (p : StreamPos) : State :=
  if s.meterUnassigned a p then s.settleMeter a p else s

/-- The answer interval ends (R21): trunk silence, echo test, start windows, transfers, meters without a slot. The order
among these is log entry 10. -/
def State.intervalEnd (s : State) : State :=
  let s1 := (s.modTrunk (fun t => { t with answering := false })).silenceStep.testStep
  let s2 := allArms.foldl State.serviceTick (allLanes.foldl State.tickWindow s1)
  allArms.foldl (fun t a => (t.settleUnassigned a .wild).settleUnassigned a .ctrl) s2

/-- The window of slot `i` closes with what was received in it; a word in an unassigned slot is ignored (R21, R23). -/
def State.closeSlot (s : State) (i : Fin 64) (w : List Byte) : State :=
  let s1 := s.modTrunk (fun t => { t with nextWindow := t.nextWindow + 1 })
  match s.frameAssignment i with
  | none => s1
  | some ar => s1.closeAssigned i ar.1 ar.2 w

/-- The next window closes with what was received in it, and the last one ends the answer interval (R21). Without an
open window a word is dropped. -/
def State.closeWindow (s : State) (w : List Byte) : State :=
  if s.trunk.answering then
    if h : s.trunk.nextWindow < 64 then
      let s1 := s.closeSlot ⟨s.trunk.nextWindow, h⟩ w
      if s.trunk.slotCount ≤ s.trunk.nextWindow + 1 then s1.intervalEnd else s1
    else (s.modTrunk (fun t => { t with nextWindow := 64 })).intervalEnd
  else s

/-- Every window still open closes with no word, in slot order; `fuel` bounds the windows of a frame (R21). -/
def State.cutWindows : Nat → State → State
  | 0, s => s
  | fuel + 1, s => if s.trunk.answering then State.cutWindows fuel (s.closeWindow []) else s

/-! ## Emission -/

/-- A slot whose assignment changes has its receive state reset, with a slot-lost event if it was UP (R30). -/
def State.changeAssignment (old : Nat × Vector SlotEntry 64) (s : State) (i : Fin 64) : State :=
  if assignment old.1 old.2 i = s.frameAssignment i then s
  else
    let wasUp := s.trunk.slots[i].up
    let s1 := s.setSlot i SlotRx.unassigned
    match assignment old.1 old.2 i with
    | none => s1
    | some ar => if wasUp then s1.slotLostEvent i ar.1 ar.2 else s1

/-- The outstanding shot for an injector (R19). -/
def Arm.shotFor (x : Arm) (k : Fin 4) : Option Shot :=
  x.entries.findSome? (fun e => if e.item.injector = k then e.shot else none)

/-- Kind, value and shot toggle of a slot word outside an echo test (R19). -/
def State.wordContent (s : State) (a : Fin 8) (r : Role) : Nat × Nat × Bool :=
  match r with
  | .unused | .wildMeter | .ctrlMeter => (0, 0, false)
  | .wildValve => (1, (s.arm a).wildSet, false)
  | .ctrlValve => (1, (s.arm a).ratio.ctrlSet, false)
  | .inj k =>
    match (s.arm a).shotFor k with
    | some sh => (2, sh.volume, sh.toggle)
    | none => (0, 0, (s.arm a).injectors[k].held)

/-- A downstream slot word (spec 02 section 2.1, R19, R20, R37). -/
def State.slotWord (s : State) (i : Fin 64) : List Byte :=
  let content :=
    match s.frameAssignment i with
    | none => (0, 0, false)
    | some ar =>
      if s.trunk.testFrame then (3, testPattern s.trunk.frameCounter i.val, false) else s.wordContent ar.1 ar.2
  let service := s.serviceFields i
  field 1 content.1 ++ field 1 (downFlags content.2.2 service.2) ++ field 2 content.2.1 ++ field 1 service.1 ++
  field 1 i.val

/-- The downstream trunk frame (spec 02 section 2.1, R17, R18). -/
def State.trunkFrame (s : State) : List Byte :=
  let body :=
    field 2 (s.trunk.frameCounter % 65536) ++ field 1 (headerFlags s.trunk.testFrame s.trunk.slotCount) ++
    ((List.finRange 64).filter (fun i => i.val < s.trunk.slotCount)).flatMap s.slotWord
  [0xA5, 0x3C] ++ body ++ checkBytes body

/-- A frame emitted during an echo test is a test frame (R37). -/
def EchoTest.covers (t : EchoTest) : Bool := t.state == .running && decide (0 < t.remaining)

/-- The echo test at an emission (R37). -/
def EchoTest.emitted (t : EchoTest) : EchoTest :=
  if t.covers then { t with remaining := t.remaining - 1, framesRun := t.framesRun + 1 } else t

/-- The frame adopts the slot count, the slot table and the test flag (R17). -/
def Trunk.adopt (t : Trunk) (slotCount : Nat) (table : Vector SlotEntry 64) : Trunk :=
  { t with frameCounter := nextFrame t.frameCounter, slotCount := slotCount, table := table,
           testFrame := t.test.covers, answering := true, nextWindow := 0, validTaken := false, testFailed := false,
           test := t.test.emitted }

/-- No meter has a sample of the new frame yet (R42). -/
def State.freshSamples (s : State) : State :=
  { s with meters := Vector.ofFn (fun a =>
      { wild := { s.meters[a].wild with sample := none }, ctrl := { s.meters[a].ctrl with sample := none } }) }

/-- One trunk frame is emitted (R17 to R20, R30, R31, R37, R164). DESIGN CHOICE (log entry 11): the changes of
assignment with their slot-lost events come before the slot words are filled, so the words of this very frame already
show the set-points and the clear service fields that those events leave (R30, R166). -/
def State.emitFrame (s : State) : State :=
  let s1 := s.freshSamples.modTrunk (fun t => t.adopt s.config.slotCount s.slotTable)
  let s2 := (List.finRange 64).foldl (State.changeAssignment (s.trunk.slotCount, s.trunk.table)) s1
  (s2.modTrunk (fun t => { t with downstream := s2.trunkFrame })).advanceTransfers

/-! ## Meanings -/

/-- ANSWER_WINDOW_CLOSE (R21). -/
def execAnswerWindowClose (w : List Byte) (s : State) : Host.Outcome State Fault Refusal :=
  .next (s.whenPowered (fun t => t.closeWindow w))

/-- LATE_WORD_DROP: a word that arrives after its window has closed is dropped unchecked (R21). -/
def execLateWordDrop (_w : List Byte) (s : State) : Host.Outcome State Fault Refusal := .next s

/-- SLOT_LOST (R26): the count's rise and its test, when it takes an UP slot to 25 (log entry 2). -/
def execSlotLost (i : Fin 64) (s : State) : Host.Outcome State Fault Refusal :=
  .next (s.whenPowered (fun t =>
    match t.frameAssignment i with
    | none => t
    | some ar => if t.trunk.slots[i].losesNext then t.loseSlot i ar.1 ar.2 else t))

/-- TRUNK_DOWN (R27): the silence count's rise and its test, when it reaches 25 while UP (log entry 2). -/
def execTrunkDown (s : State) : Host.Outcome State Fault Refusal :=
  .next (s.whenPowered (fun t =>
    if t.trunk.state = .up ∧ Config.lossFrames ≤ t.trunk.silence + 1 then
      (t.modTrunk (fun k => { k with silence := Config.lossFrames })).trunkDownEvent
    else t))

/-- TEST_END (R38): a running test whose frames remaining are 0 ends once the answer interval of its last frame has
ended; while windows of that frame are open the event has not happened (log entry 2). -/
def execTestEnd (s : State) : Host.Outcome State Fault Refusal :=
  .next (s.whenPowered (fun t => if t.trunk.testOver && !t.trunk.answering then t.endTest else t))

end Sys2Proof.Machine
end

