-- ==== Sys2Proof/Machine/ArmRequests.lean ====
section
/-! DEFINITION. What the arm-directed requests decide: AUTHORIZE, START, CANCEL, CLEAR_FAULT, GET_SENSE, READ_RECORD,
and SERVICE. Each request is a decision on the state and, if it accepts, a change of the state. -/

namespace Sys2Proof.Machine

/-! ## AUTHORIZE (R72 to R76, R79, R80) -/

/-- The slot of a reference in range; grade, season and package of a KEY, or the slot number of a SLOT (R61, R72). -/
def AuthorizeFields.slot (f : AuthorizeFields) : Option (Fin 64) :=
  if f.form = 0 then finOf 64 f.ref0
  else if f.ref0 ≤ 7 ∧ 1 ≤ f.ref1 ∧ f.ref1 ≤ 4 ∧ f.ref2 ≤ 1 then finOf 64 (slotOfKey f.ref0 f.ref1 f.ref2)
  else none

/-- Two items of a list name the same injector (R73). -/
def repeatsInjector : List AdditiveItem → Bool
  | [] => false
  | i :: rest => rest.any (fun j => j.injector == i.injector) || repeatsInjector rest

/-- The recipe passes the consistency checks of R73. -/
def Recipe.consistent (r : Recipe) : Bool :=
  !((r.fraction == 0 && !r.ethanolControlled) ||
    (decide (0 < r.fraction) && !inRange 1000 9000 r.ctrlFraction) ||
    r.additives.any (fun i => decide (i.nominal < 10)) || r.additives.any (fun i => decide (2500 < i.nominal)) ||
    repeatsInjector r.additives)

/-- The refusal that the slots of one needed role give (R74). -/
def State.roleRefusal (s : State) (a : Fin 8) (role : Role) : Option Sense :=
  match slotsOf s.config.slotCount s.slotTable a role with
  | [] => some .slotMissing
  | [_] => none
  | _ :: _ :: _ => some .slotConflict

/-- A curve named by the arm's working entry is EMPTY (R75). -/
def State.curveMissing (s : State) (a : Fin 8) : Bool :=
  s.tables.curves[(s.armEntry a).wildCurve].work.isEmpty || s.tables.curves[(s.armEntry a).ctrlCurve].work.isEmpty

/-- A slot that serves a needed role is LOST (R75). -/
def State.deviceMissing (s : State) (a : Fin 8) (r : Recipe) : Bool :=
  (neededRoles r.additives).any (fun role =>
    (slotsOf s.config.slotCount s.slotTable a role).any (fun i => !s.trunk.slots[i].up))

/-- The checks against the tables and the slots, in their order (R73 to R75). -/
def State.recipeRefusal (s : State) (a : Fin 8) (r : Recipe) : Option Sense :=
  if r.consistent = false then some .recipeInvalid
  else
    match (neededRoles r.additives).findSome? (s.roleRefusal a) with
    | some code => some code
    | none =>
      if s.curveMissing a then some .curveInvalid
      else if s.deviceMissing a r then some .deviceAbsent
      else none

/-- What AUTHORIZE decides: a refusal, or the recipe slot and its record (R72 to R75, R80). -/
def State.authorizeDecision (s : State) (a : Fin 8) (f : AuthorizeFields) : Except Sense (Fin 64 × Recipe) :=
  if (s.arm a).state ≠ .idle then .error .wrongState
  else if s.trunk.test.state = .running then .error .testActive
  else if (s.armEntry a).enabled = false then .error .armDisabled
  else if 1 < f.form then .error .badField
  else
    match f.slot with
    | none => .error .keyRange
    | some i =>
      match s.tables.recipes[i].work with
      | none => .error .noRecipe
      | some r =>
        if inRange 50 40000 f.preset = false then .error .presetRange
        else if 1 < f.basis then .error .badField
        else
          match s.recipeRefusal a r with
          | some code => .error code
          | none => .ok (i, r)

/-- The close-ahead used by a batch (R100). -/
def closeAheadUsed (ring : List Nat) (st : ArmSettings) : Nat :=
  clampNat (if ring = [] then st.initialCloseAhead else ring.sum / ring.length) 0 st.closeAheadMax

/-- The batch context (R76, R100). -/
def State.contextFor (s : State) (a : Fin 8) (f : AuthorizeFields) (i : Fin 64) (r : Recipe) : Context :=
  { recipe := r, slot := i, settings := (s.armEntry a).settings, presetMl := f.preset * 1000,
    netBasis := f.basis == 1, txid := f.txid, metro := s.nv.metroCounter,
    closeAhead := closeAheadUsed (s.arm a).ring (s.armEntry a).settings }

/-- A current record as AUTHORIZE opens it (R133). -/
def CurrentRecord.opened (e : ArmEntry) : CurrentRecord :=
  { state := .authorized, batchNumber := 0, startFrame := 0, wildK10 := e.wildK10, ctrlK10 := e.ctrlK10,
    wildCurve := e.wildCurve, ctrlCurve := e.ctrlCurve }

/-- A stream account as AUTHORIZE zeroes it; the last meter factor is the meter's current one (R80, R133, R134). -/
def Account.opened (factor : Nat) : Account := { gross := 0, net := 0, weight := 0, lastFactor := factor }

/-- The arm at the acceptance of AUTHORIZE (R80, R104, R117, R133). -/
def Arm.authorized (x : Arm) (c : Context) (e : ArmEntry) (wildFactor ctrlFactor : Nat) : Arm :=
  { x with
    state := .authorized, phase := .none, ctx := some c, wild := Account.opened wildFactor,
    ctrl := Account.opened ctrlFactor, deliveredAtClose := 0, holdCount := 0, holdTimer := 0, zeroCount := 0,
    settleAge := 0, endReason := none, secondary := [], unauthorized := 0, current := some (CurrentRecord.opened e),
    ratio := RatioCtl.opened c.recipe.fraction, entries := c.recipe.additives.map AdditiveEntry.opened,
    additiveFault := false }

/-- AUTHORIZE accepted (R80). -/
def State.authorizeArm (s : State) (a : Fin 8) (f : AuthorizeFields) (i : Fin 64) (r : Recipe) : State :=
  s.modArm a (fun x =>
    x.authorized (s.contextFor a f i r) (s.armEntry a) (s.meter a .wild).factor (s.meter a .ctrl).factor)

/-! ## START, CANCEL, CLEAR_FAULT (R81 to R83, R85, R101) -/

/-- What START decides: a refusal, or the context and whether it joins (R81). -/
def State.startDecision (s : State) (a : Fin 8) (flag : Nat) : Except Sense (Context × Bool) :=
  match boolOf flag with
  | none => .error .badField
  | some join =>
    if (s.arm a).state ≠ .authorized then .error .wrongState
    else
      match (s.arm a).ctx with
      | none => .error .wrongState
      | some c =>
        match s.startRefusal a c with
        | some code => .error code
        | none => .ok (c, join)

/-- START accepted: RUNNING, or START_PENDING in the window of the snapshot's lane (R82, R83). -/
def State.startArm (s : State) (a : Fin 8) (c : Context) (join : Bool) : State :=
  if join then (s.joinWindow a c.settings.lane).modArm a (fun x => { x with state := .startPending })
  else s.modArm a (fun x => x.enterRunning s.trunk.frameCounter)

/-- The arm of a withdrawn batch (R85, R104, R131, R133). -/
def Arm.withdrawn (x : Arm) : Arm :=
  { x with state := .idle, phase := .none, ctx := none, current := none, entries := [],
           ratio := { x.ratio with mode := .none } }

/-- CANCEL accepted in AUTHORIZED or START_PENDING; none is the refusal (R85). -/
def State.cancelArm (s : State) (a : Fin 8) : Option State :=
  match (s.arm a).state with
  | .authorized => some (s.modArm a Arm.withdrawn)
  | .startPending => some ((s.leaveWindow a).modArm a (fun x => { x with state := .authorized }))
  | .idle | .running | .holding | .held | .closing | .faulted => none

/-- The arm after CLEAR_FAULT (R101). -/
def Arm.faultCleared (x : Arm) : Arm := { x with state := .idle, unauthorized := 0 }

/-- CLEAR_FAULT accepted in FAULTED; none is the refusal (R101). -/
def State.clearArm (s : State) (a : Fin 8) : Option State :=
  if (s.arm a).state = .faulted then some (s.modArm a Arm.faultCleared) else none

/-! ## GET_SENSE, READ_RECORD (R138, R141) -/

/-- The sense code that a GET_SENSE returns (R141). -/
def State.heldSense (s : State) (arm : Nat) : Sense :=
  if h : arm < 8 then (s.arm ⟨arm, h⟩).sense else s.rack.deviceSense

/-- The sense code cleared (R141). -/
def State.clearSense (s : State) (arm : Nat) : State :=
  if h : arm < 8 then s.modArm ⟨arm, h⟩ (fun x => x.note .none) else s.noteDevice .none

/-- The record a selector names, as it stands; none where the selector is refused (R138). -/
def State.selectedRecord (s : State) (a : Fin 8) (selector : Nat) : Option (List Byte) :=
  match boolOf selector with
  | some false => some ((s.arm a).currentRecordBytes a)
  | some true => some (s.arm a).lastRecordBytes
  | none => none

/-! ## SERVICE (R163) -/

/-- The role is a meter's. -/
def Role.isMeter (r : Role) : Bool := r.meterPos.isSome

/-- What SERVICE decides: a refusal, or the slot, the class and whether it is a meter WRITE (R163). -/
def State.serviceDecision (s : State) (a : Fin 8) (p : List Byte) : Except Sense (Fin 64 × Bool × Bool) :=
  match finOf 8 (byteAt p 0), boolOf (byteAt p 1) with
  | some k, some write =>
    match s.tables.aliases[a].work[k] with
    | none => .error .noAlias
    | some i =>
      match s.workingAssignment i with
      | none => .error .deviceAbsent
      | some ar =>
        if ar.1 ≠ a ∨ s.trunk.slots[i].up = false then .error .deviceAbsent
        else if s.transfers[a].inFlight then .error .serviceBusy
        else if write ∧ ar.2.isMeter ∧ s.lines.certUnlocked = false then .error .certLocked
        else if write ∧ ar.2.isMeter ∧ (s.arm a).isOpen then .error .batchesOpen
        else .ok (i, write, write && ar.2.isMeter)
  | _, _ => .error .badField

/-- SERVICE accepted: the transfer enters REQUEST, a meter WRITE raises the counter, the transaction is HELD (R157,
R163). -/
def State.acceptService (s : State) (a : Fin 8) (i : Fin 64) (write meterWrite : Bool) (request : List Byte) : State :=
  let s1 := s.setTransfer a (Transfer.accepted i write request)
  let s2 := if meterWrite then s1.raiseMetro else s1
  s2.modRack (fun r => { r with transaction := .held a })

end Sys2Proof.Machine
end

