-- ==== Sys2Proof/Machine/StoreRequests.lean ====
section
/-! DEFINITION. What the device-directed requests decide: READ_TOTALS, READ_COUNTERS, TRUNK_TEST, and the requests of
the Table Store (spec 09). -/

namespace Sys2Proof.Machine

/-! ## READ_TOTALS, READ_COUNTERS, TRUNK_TEST -/

/-- The four values of a meter (R142). -/
def MeterTotals.encode (t : MeterTotals) : List Byte :=
  field 4 t.grossL ++ field 2 t.grossMl ++ field 4 t.netL ++ field 2 t.netMl

/-- The payload of READ_TOTALS (R142). -/
def State.totalsPayload (s : State) : List Byte :=
  allArms.flatMap (fun a => (s.meter a .wild).totals.encode ++ (s.meter a .ctrl).totals.encode)

/-- One byte of the slot state map (spec 02 section 2.1). -/
def State.slotMapByte (s : State) (k : Nat) : Nat :=
  packBits ((List.range 8).map (fun b => ((s.trunk.slots[8 * k + b]?).map SlotRx.up).getD false))

/-- The payload of READ_COUNTERS (spec 02 section 2.1, R39). -/
def State.countersPayload (s : State) : List Byte :=
  field 1 s.rack.errors ++ field 1 s.trunk.crcErrors ++ field 1 s.trunk.staleErrors ++ field 2 s.trunk.test.errors ++
  field 2 s.trunk.test.framesRun ++ field 1 s.trunk.test.state.code ++ field 1 s.trunk.state.code ++
  (List.range 8).flatMap (fun k => field 1 (s.slotMapByte k))

/-- The echo test after READ_COUNTERS (R39). -/
def EchoTest.afterRead (t : EchoTest) : EchoTest :=
  match t.state with
  | .complete => { t with state := .none, framesRun := 0, errors := 0 }
  | .none | .running => { t with errors := 0 }

/-- What READ_COUNTERS clears once the values are taken (R3, R39). -/
def State.clearCounters (s : State) : State :=
  (s.modRack (fun r => { r with errors := 0 })).modTrunk (fun t =>
    { t with crcErrors := 0, staleErrors := 0, test := t.test.afterRead })

/-- The refusal of a TRUNK_TEST (R36). -/
def State.testRefusal (s : State) (count : Nat) : Option Sense :=
  if s.trunk.test.state = .running then some .testActive
  else if allArms.any (fun a => (s.arm a).state != .idle) then some .batchesOpen
  else if allArms.any (fun a => s.transfers[a].inFlight) then some .serviceBusy
  else if inRange 1 60000 count = false then some .badField
  else none

/-- TRUNK_TEST accepted (R36). -/
def State.startTest (s : State) (count : Nat) : State :=
  s.modTrunk (fun t =>
    { t with state := .test, test := { state := .running, remaining := count, framesRun := 0, errors := 0 } })

/-! ## The working copies by key -/

/-- The working copy of an entry (R158). -/
def Tables.content (t : Tables) : EntryKey → Content
  | .recipe i => .recipe i t.recipes[i].work
  | .curve i => .curve i t.curves[i].work
  | .armEntry a => .armEntry a t.arms[a].work
  | .slotTable => .slotTable t.slots.work
  | .aliasTable a => .aliasTable a t.aliases[a].work
  | .config => .config t.config.work
  | .protection => .protection t.protection.work

/-- The two flags of an entry: working differs, nonvolatile invalid (R146). -/
def Tables.flags (t : Tables) : EntryKey → Bool × Bool
  | .recipe i => (t.recipes[i].differs, t.recipes[i].invalid)
  | .curve i => (t.curves[i].differs, t.curves[i].invalid)
  | .armEntry a => (t.arms[a].differs, t.arms[a].invalid)
  | .slotTable => (t.slots.differs, t.slots.invalid)
  | .aliasTable a => (t.aliases[a].differs, t.aliases[a].invalid)
  | .config => (t.config.differs, t.config.invalid)
  | .protection => (t.protection.differs, t.protection.invalid)

/-- A working copy written by an accepted STORE; the nonvolatile invalid flag is kept (R146, R151). -/
def Entry.stored {α : Type} (e : Entry α) (work : α) (differs : Bool) : Entry α :=
  { e with work := work, differs := differs }

/-- The tables after an accepted STORE (R151). -/
def Tables.write (t : Tables) (differs : Bool) : Content → Tables
  | .recipe i r => { t with recipes := t.recipes.set i (t.recipes[i].stored r differs) }
  | .curve i p => { t with curves := t.curves.set i (t.curves[i].stored p differs) }
  | .armEntry a e => { t with arms := t.arms.set a (t.arms[a].stored e differs) }
  | .slotTable x => { t with slots := t.slots.stored x differs }
  | .aliasTable a x => { t with aliases := t.aliases.set a (t.aliases[a].stored x differs) }
  | .config c => { t with config := t.config.stored c differs }
  | .protection r => { t with protection := t.protection.stored r differs }

/-! ## READ_TABLE, READ_STORE_STATUS (R158) -/

/-- The payload of READ_TABLE for an entry (R158). -/
def State.tablePayload (s : State) (k : EntryKey) : List Byte :=
  field 1 (packBits [(s.tables.flags k).1, (s.tables.flags k).2]) ++ encodeContent (s.tables.content k)

/-- The payload of READ_STORE_STATUS (R158). -/
def State.statusPayload (s : State) : List Byte :=
  field 1 s.store.status.code ++ field 1 (boolNum s.store.saveFault) ++ field 1 s.store.latch.code ++
  field 1 s.store.operations ++ field 2 s.nv.metroCounter ++ field 1 s.tables.protection.work.mode.code

/-! ## STORE_ENABLE, STORE (R149 to R156) -/

/-- The latch that a mode byte names (R148). -/
def Latch.ofMode (n : Nat) : Option Latch := if n = 0 then some .persist else if n = 1 then some .working else none

/-- What STORE_ENABLE decides (R149). DESIGN CHOICE (log entry 25): R149 gives its two refusals without an order; the mode
byte is tested before the store status. -/
def State.enableDecision (s : State) (mode : Nat) : Except Sense Latch :=
  match Latch.ofMode mode with
  | none => .error .badField
  | some l => if s.store.status = .busy then .error .storeBusy else .ok l

/-- The count of a range code (R154). -/
def rangeCount (r : Fin 8) : Nat := [0, 1, 2, 8, 16, 32, 48, 64].getD r.val 0

/-- The recipe slot lies in the protected range (R154). -/
def Protection.covers (p : Protection) (i : Fin 64) : Bool :=
  (if p.top then decide (64 - rangeCount p.range ≤ i.val) else decide (i.val < rangeCount p.range)) != p.complement

/-- Two arm entries differ in a metrological field (R66, R156). -/
def ArmEntry.metroDiffers (e f : ArmEntry) : Bool :=
  !(e.wildK10 == f.wildK10 && e.ctrlK10 == f.ctrlK10 && e.wildCurve == f.wildCurve && e.ctrlCurve == f.ctrlCurve)

/-- The STORE is metrological (R156). -/
def State.metrological (s : State) : Content → Bool
  | .curve _ _ => true
  | .armEntry a e => e.metroDiffers (s.armEntry a)
  | .recipe _ _ | .slotTable _ | .aliasTable _ _ | .config _ | .protection _ => false

/-- The content is a protection record that names a mode (R150). -/
def Content.namesMode (c : Content) (m : ProtMode) : Bool :=
  match c with
  | .protection r => r.mode == m
  | _ => false

/-- Condition 4: BAD_MODE (R150). -/
def State.badMode (s : State) (c : Content) : Bool :=
  match s.store.latch with
  | .clear => false
  | .working => s.metrological c || c.namesMode .permanent
  | .persist => c.namesMode .lockedToRestart

/-- Condition 5: PROTECTED (R150, R154, R155). -/
def State.protectedStore (s : State) : Content → Bool
  | .recipe i _ => s.tables.protection.work.covers i
  | .protection _ =>
    s.tables.protection.work.mode == .lockedToRestart || s.tables.protection.work.mode == .permanent
  | .curve _ _ | .armEntry _ _ | .slotTable _ | .aliasTable _ _ | .config _ => false

/-- Condition 6: CERT_LOCKED (R150, R155, R156). -/
def State.certBars (s : State) (c : Content) : Bool :=
  !s.lines.certUnlocked &&
  (match c with
   | .protection _ => s.tables.protection.work.mode == .switched
   | c => s.metrological c)

/-- An arm with an open batch names a curve in its working entry (R156). -/
def State.curveInUse (s : State) (i : Fin 16) : Bool :=
  allArms.any (fun a => (s.arm a).isOpen && ((s.armEntry a).wildCurve == i || (s.armEntry a).ctrlCurve == i))

/-- Condition 7: BATCHES_OPEN (R150, R156). -/
def State.batchesBar (s : State) : Content → Bool
  | .slotTable _ => s.anyOpen
  | .curve i _ => s.curveInUse i
  | .armEntry a e => e.metroDiffers (s.armEntry a) && (s.arm a).isOpen
  | .config c => (c.periodMs != s.config.periodMs || c.slotCount != s.config.slotCount) && s.anyOpen
  | .recipe _ _ | .aliasTable _ _ | .protection _ => false

/-- What STORE decides (R150). DESIGN CHOICE (log entry 28): R152 refuses a STORE with STORE_BUSY while a commit waits or
runs, when the latch is always clear; the model takes the order of R150, which gives NOT_ENABLED there. -/
def State.storeDecision (s : State) (p : List Byte) : Except Sense Content :=
  if s.store.latch = .clear then .error .notEnabled
  else if s.store.status = .busy then .error .storeBusy
  else
    match decodeContent p with
    | none => .error .badField
    | some c =>
      if s.badMode c then .error .badMode
      else if s.protectedStore c then .error .isProtected
      else if s.certBars c then .error .certLocked
      else if s.batchesBar c then .error .batchesOpen
      else .ok c

/-- The pulse residue of a meter goes to 0 when its K10 changes (R58). -/
def Meter.rebased (m : Meter) (old new : Nat) : Meter := if old = new then m else { m with pulseRes := 0 }

/-- The meters after an accepted STORE (R58). -/
def State.rebaseMeters (s : State) : Content → State
  | .armEntry a e =>
    (s.modMeter a .wild (fun m => m.rebased (s.armEntry a).wildK10 e.wildK10)).modMeter a .ctrl
      (fun m => m.rebased (s.armEntry a).ctrlK10 e.ctrlK10)
  | .recipe _ _ | .curve _ _ | .slotTable _ | .aliasTable _ _ | .config _ | .protection _ => s

/-- The commit of an accepted PERSIST STORE (R151, R152). -/
def State.queueCommit (s : State) (c : Content) : State :=
  (s.modStore (fun k => { k with status := .busy })).joinQueue (.commit c)

/-- The working copy of an accepted STORE, the meters whose K10 it changes, and the counter (R58, R151, R157). -/
def State.writeWorking (s : State) (c : Content) : State :=
  let s1 := s.rebaseMeters c
  let s2 := { s1 with tables := s1.tables.write (s.store.latch == .working) c }
  if s.metrological c then s2.raiseMetro else s2

/-- STORE accepted (R151). -/
def State.acceptStore (s : State) (c : Content) : State :=
  if s.store.latch = .persist then (s.writeWorking c).queueCommit c else s.writeWorking c

/-! ## RESET_DEVICE (R159) -/

/-- The refusal of a RESET_DEVICE (R159). -/
def State.resetRefusal (s : State) : Option Sense :=
  if s.store.prepared = false then some .resetNotPrepared
  else if allArms.any (fun a => (s.arm a).state != .idle && (s.arm a).state != .faulted) then some .batchesOpen
  else if s.store.hasCommit then some .storeBusy
  else none

end Sys2Proof.Machine
end

