-- ==== Sys2Proof/Machine/Requests.lean ====
section
/-! DEFINITION. A complete request: its check (R13), its dispatch to the owner, its response, and the meanings of the
request rows. -/

namespace Sys2Proof.Machine

/-! ## Admission (R13) -/

/-- The payload is of a length that the owning chapter allows for the request (R13, R36, R39, R79, R138, R141, R142,
R148, R149, R162). -/
def RequestCode.payloadOk (c : RequestCode) (p : List Byte) : Bool :=
  match c with
  | .authorize => p.length == 11
  | .start | .readRecord | .storeEnable => p.length == 1
  | .cancel | .clearFault | .getSense | .readTotals | .readCounters | .storeDisable | .readStoreStatus
  | .resetPrepare | .resetDevice => p.length == 0
  | .readTable | .trunkTest => p.length == 2
  | .service => inRange 3 34 p.length
  | .store => contentLengthOk p

/-- The arm field is one that the request takes (R13, request catalogue). -/
def RequestCode.armOk (c : RequestCode) (arm : Nat) : Bool :=
  match c with
  | .authorize | .start | .cancel | .clearFault | .readRecord | .service => decide (arm < 8)
  | .getSense => decide (arm < 8) || arm == 255
  | .readTotals | .readCounters | .storeEnable | .storeDisable | .store | .readTable | .readStoreStatus | .trunkTest
  | .resetPrepare | .resetDevice => arm == 255

/-- The request passes the check of R13. -/
def Request.admitted (r : Request) : Bool :=
  decide (r.payload.length ≤ 240) && r.code.payloadOk r.payload && r.code.armOk r.arm.toNat

/-! ## The owners' responses -/

/-- An accepted request answered with a payload (R14, R140). -/
def State.accept (s : State) (code : RequestCode) (payload : List Byte) : State := s.respond code.code payload false

/-- A refused request (R139, R140). -/
def State.deny (s : State) (code : RequestCode) (arm : Byte) (sense : Sense) : State :=
  s.refuse code.code arm.toNat sense

/-- The owner of an arm-directed request decides it (R13). -/
def State.serveArm (s : State) (code : RequestCode) (a : Fin 8) (arm : Byte) (p : List Byte) : State :=
  match code with
  | .authorize =>
    match s.authorizeDecision a (authorizeFields p) with
    | .error c => s.deny code arm c
    | .ok ir => (s.authorizeArm a (authorizeFields p) ir.1 ir.2).accept code []
  | .start =>
    match s.startDecision a (byteAt p 0) with
    | .error c => s.deny code arm c
    | .ok cj => (s.startArm a cj.1 cj.2).accept code []
  | .cancel =>
    match s.cancelArm a with
    | none => s.deny code arm .wrongState
    | some t => t.accept code []
  | .clearFault =>
    match s.clearArm a with
    | none => s.deny code arm .wrongState
    | some t => t.accept code []
  | .readRecord =>
    match s.selectedRecord a (byteAt p 0) with
    | none => s.deny code arm .badField
    | some bytes => s.accept code bytes
  | .service =>
    match s.serviceDecision a p with
    | .error c => s.deny code arm c
    | .ok d => s.acceptService a d.1 d.2.1 d.2.2 (p.drop 2)
  | .getSense | .readTotals | .readCounters | .storeEnable | .storeDisable | .store | .readTable | .readStoreStatus
  | .trunkTest | .resetPrepare | .resetDevice => s

/-- The owner of a request decides it and the response is fixed (R13, R14). An arm-directed request reaches its owner
only with an arm field of 0 to 7. -/
def State.serve (s : State) (code : RequestCode) (arm : Byte) (p : List Byte) : State :=
  match code with
  | .authorize | .start | .cancel | .clearFault | .readRecord | .service =>
    match finOf 8 arm.toNat with
    | some a => s.serveArm code a arm p
    | none => s.deny code arm .badRequest
  | .getSense => (s.clearSense arm.toNat).accept code (field 1 (s.heldSense arm.toNat).code)
  | .readTotals => s.accept code s.totalsPayload
  | .readCounters => s.clearCounters.accept code s.countersPayload
  | .trunkTest =>
    match s.testRefusal (numAt p 0 2) with
    | some c => s.deny code arm c
    | none => (s.startTest (numAt p 0 2)).accept code []
  | .storeEnable =>
    match s.enableDecision (byteAt p 0) with
    | .error c => s.deny code arm c
    | .ok l => (s.modStore (fun k => { k with latch := l })).accept code []
  | .storeDisable => (s.modStore (fun k => { k with latch := .clear })).accept code []
  | .store =>
    match s.storeDecision p with
    | .error c => s.deny code arm c
    | .ok c => (s.acceptStore c).accept code []
  | .readTable =>
    match EntryKey.ofTarget (byteAt p 0) (byteAt p 1) with
    | none => s.deny code arm .badField
    | some k => s.accept code (s.tablePayload k)
  | .readStoreStatus => s.accept code s.statusPayload
  | .resetPrepare => s.accept code []
  | .resetDevice =>
    match s.resetRefusal with
    | some c => s.deny code arm c
    | none => s.respond code.code [] true

/-! ## Complete requests -/

/-- What every complete request does at its decision: code 0x0B clears the latch (R149), and the prepared flag is set
by an accepted RESET_PREPARE and cleared by any other (R159). -/
def State.conclude (s : State) (code : Nat) (prepare : Bool) : State :=
  s.modStore (fun k => { k with latch := if code = 0x0B then .clear else k.latch, prepared := prepare })

/-- A request whose record is whole: answered BAD_REQUEST or dispatched (R13). -/
def State.submit (s : State) (r : Request) : State :=
  if r.admitted then (s.serve r.code r.arm r.payload).conclude r.code.code (r.code == .resetPrepare)
  else (s.deny r.code r.arm .badRequest).conclude r.code.code false

/-- The arm field of a complete request; one too short to have it counts as device-directed (log entry 13). -/
def armField (bytes : List Byte) : Nat := if 2 ≤ bytes.length then byteAt bytes 1 else 255

/-- A request is complete under R11: `bytes` are those stored, `count` those received (R13). -/
def State.completeRequest (s : State) (bytes : List Byte) (count : Nat) : State :=
  match parseRequest bytes count with
  | some r => s.submit r
  | none => (s.refuse (byteAt bytes 0) (armField bytes) .badRequest).conclude (byteAt bytes 0) false

/-- A request row apart from a frame: as a complete request met by an empty assembly, discarded while a transaction is
HELD or SENDING (R11, R14, log entry 14). -/
def State.takeRequest (s : State) (code : RequestCode) (arm : Byte) (p : List Byte) : State :=
  if s.rack.transaction = .none then
    (s.modRack (fun r => { r with assembly := none })).submit { code := code, arm := arm, payload := p }
  else s.modRack (fun r => { r with discard := true })

/-- The request row's effect while the part has its supply. -/
def State.request (s : State) (code : RequestCode) (arm : Byte) (p : List Byte) : State :=
  s.whenPowered (fun t => t.takeRequest code arm p)

/-! ## Meanings -/

/-- AUTHORIZE (R80). -/
def execAuthorize (arm : Byte) (p : List Byte) (s : State) : Host.Outcome State Fault Refusal :=
  .next (s.request .authorize arm p)

/-- START (R81). -/
def execStart (arm : Byte) (p : List Byte) (s : State) : Host.Outcome State Fault Refusal :=
  .next (s.request .start arm p)

/-- CANCEL (R85). -/
def execCancel (arm : Byte) (p : List Byte) (s : State) : Host.Outcome State Fault Refusal :=
  .next (s.request .cancel arm p)

/-- CLEAR_FAULT (R101). -/
def execClearFault (arm : Byte) (p : List Byte) (s : State) : Host.Outcome State Fault Refusal :=
  .next (s.request .clearFault arm p)

/-- GET_SENSE (R141). -/
def execGetSense (arm : Byte) (p : List Byte) (s : State) : Host.Outcome State Fault Refusal :=
  .next (s.request .getSense arm p)

/-- READ_RECORD (R138). -/
def execReadRecord (arm : Byte) (p : List Byte) (s : State) : Host.Outcome State Fault Refusal :=
  .next (s.request .readRecord arm p)

/-- READ_TOTALS (R142). -/
def execReadTotals (arm : Byte) (p : List Byte) (s : State) : Host.Outcome State Fault Refusal :=
  .next (s.request .readTotals arm p)

/-- READ_COUNTERS (R39). -/
def execReadCounters (arm : Byte) (p : List Byte) (s : State) : Host.Outcome State Fault Refusal :=
  .next (s.request .readCounters arm p)

/-- TRUNK_TEST (R36). -/
def execTrunkTest (arm : Byte) (p : List Byte) (s : State) : Host.Outcome State Fault Refusal :=
  .next (s.request .trunkTest arm p)

/-- STORE_ENABLE (R149). -/
def execStoreEnable (arm : Byte) (p : List Byte) (s : State) : Host.Outcome State Fault Refusal :=
  .next (s.request .storeEnable arm p)

/-- STORE_DISABLE (R149). -/
def execStoreDisable (arm : Byte) (p : List Byte) (s : State) : Host.Outcome State Fault Refusal :=
  .next (s.request .storeDisable arm p)

/-- STORE (R150). -/
def execStore (arm : Byte) (p : List Byte) (s : State) : Host.Outcome State Fault Refusal :=
  .next (s.request .store arm p)

/-- READ_TABLE (R158). -/
def execReadTable (arm : Byte) (p : List Byte) (s : State) : Host.Outcome State Fault Refusal :=
  .next (s.request .readTable arm p)

/-- READ_STORE_STATUS (R158). -/
def execReadStoreStatus (arm : Byte) (p : List Byte) (s : State) : Host.Outcome State Fault Refusal :=
  .next (s.request .readStoreStatus arm p)

/-- RESET_PREPARE (R159). -/
def execResetPrepare (arm : Byte) (p : List Byte) (s : State) : Host.Outcome State Fault Refusal :=
  .next (s.request .resetPrepare arm p)

/-- RESET_DEVICE (R159). -/
def execResetDevice (arm : Byte) (p : List Byte) (s : State) : Host.Outcome State Fault Refusal :=
  .next (s.request .resetDevice arm p)

/-- SERVICE (R163). -/
def execService (arm : Byte) (p : List Byte) (s : State) : Host.Outcome State Fault Refusal :=
  .next (s.request .service arm p)

end Sys2Proof.Machine
end

