-- ==== Sys2Proof/Machine/Rack.lean ====
section
/-! DEFINITION. The rack link (spec 01): acceptance of downstream frames, the management segments both ways, the held
levels, the upstream frame, the link state, and the period events of the timebase. -/

namespace Sys2Proof.Machine

/-! ## Downstream segments (R11, R12, R14) -/

/-- The most bytes an assembly stores (spec 01 section 1.6). -/
def assemblyLimit : Nat := 243

/-- An assembly opened or appended to with a segment's bytes, in a frame with the given number (R11). -/
def Assembly.append (a : Assembly) (number : Byte) (bytes : List Byte) : Assembly :=
  { buffer := (a.buffer ++ bytes).take assemblyLimit, count := a.count + bytes.length, expected := number + 1 }

/-- An assembly that holds nothing yet. -/
def Assembly.fresh : Assembly := { buffer := [], count := 0, expected := 0 }

/-- The partial request discarded and the discard flag set (R11, R12). -/
def RackLink.breakAssembly (r : RackLink) : RackLink := { r with assembly := none, discard := true }

/-- An open assembly is broken by a discarded frame (R12). -/
def RackLink.breakIfOpen (r : RackLink) : RackLink := if r.assembly = none then r else r.breakAssembly

/-- An open assembly is broken by a frame number other than the one it expects (R12). -/
def RackLink.checkGap (r : RackLink) (number : Byte) : RackLink :=
  match r.assembly with
  | none => r
  | some a => if a.expected = number then r else r.breakAssembly

/-- The segment of an accepted frame while the transaction is NONE, the gap check made (R11). -/
def State.assemble (s : State) (f : DownFrame) : State :=
  match s.rack.assembly, f.kind with
  | none, .none => s
  | some a, .none => s.modRack (fun r => { r with assembly := some (a.append f.number []) })
  | none, .first => s.modRack (fun r => { r with assembly := some (Assembly.fresh.append f.number f.segment) })
  | some _, .first =>
    s.modRack (fun r => { r.breakAssembly with assembly := some (Assembly.fresh.append f.number f.segment) })
  | none, .middle | none, .last => s.modRack (fun r => { r with discard := true })
  | some a, .middle => s.modRack (fun r => { r with assembly := some (a.append f.number f.segment) })
  | some a, .last =>
    let b := a.append f.number f.segment
    (s.modRack (fun r => { r with assembly := none })).completeRequest b.buffer b.count
  | none, .only => s.completeRequest f.segment f.segment.length
  | some _, .only => (s.modRack RackLink.breakAssembly).completeRequest f.segment f.segment.length

/-- The segment of an accepted frame is taken (R11, R12, R14). -/
def State.takeSegment (s : State) (f : DownFrame) : State :=
  if s.rack.transaction = .none then (s.modRack (fun r => r.checkGap f.number)).assemble f
  else if f.kind = .none then s
  else s.modRack (fun r => { r with discard := true })

/-! ## Levels (R4) -/

/-- The levels of an arm after an accepted frame (R4). -/
def Levels.update (l : Levels) (runPermit hold : Bool) : Levels :=
  { runPermit := runPermit, dropCause := if l.runPermit && !runPermit then .rack else l.dropCause, hold := hold }

/-- The levels of an arm at link loss (R10 steps 1 and 2). -/
def Levels.linkLost (l : Levels) : Levels :=
  { runPermit := false, dropCause := if l.runPermit then .link else l.dropCause, hold := false }

/-- New levels are held, and each arm whose levels have changed handles the change (R4). -/
def State.setLevels (s : State) (levels : Vector Levels 8) : State :=
  allArms.foldl (fun t a => t.levelsChanged a s.rack.levels[a]) (s.modRack (fun r => { r with levels := levels }))

/-- The levels of every arm are set from an accepted frame (R4). -/
def State.takeLevels (s : State) (f : DownFrame) : State :=
  s.setLevels (Vector.ofFn (fun a => s.rack.levels[a].update (commandRunPermit f a) (commandHold f a)))

/-! ## Upstream frame (R6 to R8, R15) -/

/-- The segment of an upstream frame: kind code, data, the transaction after it, and whether it ends a response of an
accepted RESET_DEVICE (R15, R159). -/
def Transaction.segment : Transaction → Nat × List Byte × Transaction × Bool
  | .none => (0, [], .none, false)
  | .held a => (5, [], .held a, false)
  | .sending bytes sent thenReset =>
    let rest := bytes.drop sent
    if rest.length ≤ 32 then (if sent = 0 then 4 else 3, rest, .none, thenReset)
    else (if sent = 0 then 1 else 2, rest.take 32, .sending bytes (sent + 32) thenReset, false)

/-- The device status block (spec 01 section 1.1, R7). -/
def State.statusBlock (s : State) : List Byte :=
  field 1 (s.trunk.state.code + 4 * boolNum s.timebase.internal + 8 * boolNum s.lines.certUnlocked) ++
  field 1 (s.store.status.code + 4 * boolNum s.store.saveFault) ++ field 1 s.rack.errors ++
  field 1 s.rack.deviceSense.code

/-- The frame number echo (R6). -/
def State.echo (s : State) : Byte :=
  if s.timebase.internal then 255
  else
    match s.rack.last with
    | some l => l.number
    | none => 255

/-- The upstream rack frame (spec 01 section 1.1, R6). -/
def State.upstreamFrame (s : State) : List Byte :=
  let seg := s.rack.transaction.segment
  let body :=
    [s.echo] ++ s.statusBlock ++
    allArms.flatMap (fun a => armImage (s.arm a) (s.meter a .wild) (s.meter a .ctrl)) ++
    field 1 seg.1 ++ field 1 seg.2.1.length ++ seg.2.1
  [0xD2, 0xB4] ++ body ++ checkBytes body

/-- The upstream frame is built and sent; the transaction advances (R6, R14, R15). -/
def State.sendUpstream (s : State) : State :=
  s.modRack (fun r =>
    { r with upstream := s.upstreamFrame, transaction := r.transaction.segment.2.2.1,
             resetDue := r.resetDue || r.transaction.segment.2.2.2 })

/-! ## Period events (R5, R17) -/

/-- The frames of a period event whose windows are closed: the trunk frame, the upstream frame, the period adopted (R5, R6,
R17). The upstream frame is built last, so that a response which a change of assignment releases begins in the frame of
this very event (R15); the rest of the order is log entry 11. -/
def State.sendFrames (s : State) : State :=
  let t := s.emitFrame.sendUpstream
  { t with timebase := { t.timebase with periodMs := t.config.periodMs, lastEventUs := t.nowUs } }

/-- A period event at a moment: the windows cut short, then the frames (R5, R21). A response that a window cut short
releases begins in the upstream frame of this very event (R15). -/
def State.periodEvent (s : State) : State := (s.cutWindows 65).sendFrames

/-- The moment moved on to a later one. -/
def State.at (s : State) (us : Nat) : State := { s with nowUs := max s.nowUs us }

/-! ## Link state (R9, R10) -/

/-- The rack link goes DOWN (R10), the prepared flag is cleared (R159), and a held response is no longer wanted
(R166). -/
def State.linkDown (s : State) : State :=
  let s1 := s.setLevels (Vector.ofFn (fun a => s.rack.levels[a].linkLost))
  let s2 := s1.modRack (fun r =>
    { r with up := false, silence := 0, assembly := none, transaction := .none, discard := false, errors := 0 })
  { s2 with transfers := Vector.ofFn (fun a => s2.transfers[a].unwanted),
            store := { s2.store with prepared := false } }

/-- The silence count reaches the link loss limit at its next rise (R9). -/
def State.linkLossDue (s : State) : Bool := s.rack.up && decide (s.config.linkLossLimit ≤ s.rack.silence + 1)

/-- The link state at a period event of source INTERNAL (R9). -/
def State.silenceRise (s : State) : State :=
  if s.linkLossDue then s.linkDown
  else if s.rack.up then s.modRack (fun r => { r with silence := r.silence + 1 })
  else s

/-- A period event of source INTERNAL (R5, R9). -/
def State.internalPeriod (s : State) : State :=
  { s with timebase := { s.timebase with internal := true } }.silenceRise.periodEvent

/-! ## Frames received (R1, R3) -/

/-- The frame ends no earlier than half a nominal period after the previous accepted one (R1). -/
def State.spacingOk (s : State) : Bool :=
  match s.rack.last with
  | none => true
  | some l => decide (s.timebase.periodMs * 1000 ≤ 2 * (s.nowUs - l.atUs))

/-- A frame is discarded: counted, and an open assembly broken (R3, R12). -/
def State.discardFrame (s : State) : State :=
  s.modRack (fun r => { r.breakIfOpen with errors := satSucc 255 r.errors })

/-- The acceptance recorded: last frame, link UP, source RACK (R1, R5, R9). -/
def State.recordFrame (s : State) (f : DownFrame) : State :=
  { s with
    rack := { s.rack with up := true, silence := 0, last := some { number := f.number, atUs := s.nowUs } },
    timebase := { s.timebase with internal := false } }

/-- A frame is accepted (R1, R5). The windows that its period event cuts short close before its levels and its segment are
taken: a record that the segment reads then stands as the arm images of the answering frame show it, and the record
toggle of that frame is the one at the dispatch (R138; log entry 11). -/
def State.acceptFrame (s : State) (f : DownFrame) : State :=
  ((((s.recordFrame f).cutWindows 65).takeLevels f).takeSegment f).sendFrames

/-- A frame is received (R1). -/
def State.receiveFrame (s : State) (bytes : List Byte) : State :=
  match parseDownFrame bytes with
  | none => s.discardFrame
  | some f => if s.spacingOk then s.acceptFrame f else s.discardFrame

/-- The moment of the rack timeout: 1.5 nominal periods after the last accepted frame (R5). -/
def State.timeoutUs (s : State) : Nat := ((s.rack.last.map (·.atUs)).getD 0) + 1500 * s.timebase.periodMs

/-! ## Meanings -/

/-- RACK_FRAME_RECEIVED (R1). -/
def execRackFrameReceived (elapsedUs : Nat) (bytes : List Byte) (s : State) : Host.Outcome State Fault Refusal :=
  .next (s.whenPowered (fun t => { t with nowUs := t.nowUs + elapsedUs }.receiveFrame bytes))

/-- TIMEBASE_RACK_TIMEOUT (R5): an event of source RACK only (log entry 4). -/
def execTimebaseRackTimeout (s : State) : Host.Outcome State Fault Refusal :=
  .next (s.whenPowered (fun t => if t.timebase.internal then t else (t.at t.timeoutUs).internalPeriod))

/-- TIMEBASE_INTERNAL_PERIOD (R5): an event of source INTERNAL only (log entry 4). -/
def execTimebaseInternalPeriod (s : State) : Host.Outcome State Fault Refusal :=
  .next (s.whenPowered (fun t =>
    if t.timebase.internal then (t.at (t.timebase.lastEventUs + 1000 * t.timebase.periodMs)).internalPeriod else t))

/-- LINK_LOSS (R9, R10): the silence count's rise and its test, when it reaches the limit (log entry 2). -/
def execLinkLoss (s : State) : Host.Outcome State Fault Refusal :=
  .next (s.whenPowered (fun t => if t.linkLossDue then t.linkDown else t))

end Sys2Proof.Machine
end

