-- ==== Sys2Proof/Machine/Power.lean ====
section
/-! DEFINITION. Resets and supply: loading the tables (R147), restoring the totalizers (R144), and the state that every
block takes (R16, R40, R60, R103, R116, R132, R145, R160, R168). -/

namespace Sys2Proof.Machine

/-! ## Loading the tables (R147) -/

/-- What the array holds for an entry (R147). -/
inductive Loaded where
  | blank
  | stored (content : Content)
  | failed
  deriving DecidableEq, Repr

/-- What a nonvolatile entry loads as (R147). -/
def NvEntry.loaded (e : NvEntry) (k : EntryKey) : Loaded :=
  match e with
  | .unwritten => .blank
  | .failing => .failed
  | .written bytes =>
    match unsealContent k bytes with
    | some c => .stored c
    | none => .failed

/-- A working copy that could not be read: the fallback value, nonvolatile invalid set (R147). -/
def Entry.failed {α : Type} (fallback : α) : Entry α := { work := fallback, differs := false, invalid := true }

/-- A recipe slot as loaded (R147). -/
def loadRecipe (e : NvEntry) (i : Fin 64) : Entry (Option Recipe) :=
  match e.loaded (.recipe i) with
  | .stored (.recipe _ r) => Entry.loaded r
  | .failed => Entry.failed none
  | _ => Entry.loaded none

/-- A curve as loaded (R147). -/
def loadCurve (e : NvEntry) (i : Fin 16) : Entry (List CurvePoint) :=
  match e.loaded (.curve i) with
  | .stored (.curve _ p) => Entry.loaded p
  | .failed => Entry.failed []
  | _ => Entry.loaded []

/-- An arm entry as loaded (R66, R147). -/
def loadArmEntry (e : NvEntry) (a : Fin 8) : Entry ArmEntry :=
  match e.loaded (.armEntry a) with
  | .stored (.armEntry _ x) => Entry.loaded x
  | .failed => Entry.failed ArmEntry.cleared
  | _ => Entry.loaded ArmEntry.cleared

/-- The slot table as loaded (R147). -/
def loadSlotTable (e : NvEntry) : Entry (Vector SlotEntry 64) :=
  match e.loaded .slotTable with
  | .stored (.slotTable t) => Entry.loaded t
  | .failed => Entry.failed blankSlotTable
  | _ => Entry.loaded blankSlotTable

/-- An arm's aliases as loaded (R147, R161). -/
def loadAliasTable (e : NvEntry) (a : Fin 8) : Entry (Vector (Option (Fin 64)) 8) :=
  match e.loaded (.aliasTable a) with
  | .stored (.aliasTable _ t) => Entry.loaded t
  | .failed => Entry.failed blankAliasTable
  | _ => Entry.loaded blankAliasTable

/-- The device config as loaded (R68, R147). -/
def loadConfig (e : NvEntry) : Entry DeviceConfig :=
  match e.loaded .config with
  | .stored (.config c) => Entry.loaded c
  | .failed => Entry.failed DeviceConfig.defaults
  | _ => Entry.loaded DeviceConfig.defaults

/-- The protection record as loaded (R147). -/
def loadProtection (e : NvEntry) : Entry Protection :=
  match e.loaded .protection with
  | .stored (.protection r) => Entry.loaded r
  | .failed => Entry.failed Protection.fallback
  | _ => Entry.loaded Protection.blank

/-- Every working copy as loaded (R147). -/
def Tables.load (nv : NvTables) : Tables :=
  { recipes := Vector.ofFn (fun i => loadRecipe nv.recipes[i] i),
    curves := Vector.ofFn (fun i => loadCurve nv.curves[i] i),
    arms := Vector.ofFn (fun a => loadArmEntry nv.arms[a] a), slots := loadSlotTable nv.slots,
    aliases := Vector.ofFn (fun a => loadAliasTable nv.aliases[a] a), config := loadConfig nv.config,
    protection := loadProtection nv.protection }

/-! ## Restoring the totalizers (R144) -/

/-- The copy that a restore uses, if one passes its check (R144). -/
def SaveEntry.chosen (e : SaveEntry) : Option (Fin 2) :=
  match e.copy0, e.copy1 with
  | .holds x, .holds y =>
    if y.seq = (x.seq + 1) % Config.counterModulus then some 1
    else if x.seq = (y.seq + 1) % Config.counterModulus then some 0
    else if x.seq < y.seq then some 1 else some 0
  | .holds _, .unwritten | .holds _, .failing => some 0
  | .unwritten, .holds _ | .failing, .holds _ => some 1
  | .unwritten, .unwritten | .unwritten, .failing | .failing, .unwritten | .failing, .failing => none

/-- A copy has been written and neither passes (R144). -/
def SaveEntry.broken (e : SaveEntry) : Bool :=
  e.chosen.isNone && !(e.copy0 == .unwritten && e.copy1 == .unwritten)

/-- The totalizers an entry restores for a position (R144). -/
def SaveEntry.totals (e : SaveEntry) (p : StreamPos) : MeterTotals :=
  match e.chosen with
  | none => MeterTotals.zero
  | some c =>
    match e.get c, p with
    | .holds image, .wild => image.wild
    | .holds image, .ctrl => image.ctrl
    | .unwritten, _ | .failing, _ => MeterTotals.zero

/-! ## Reset -/

/-- The whole part after a reset with the given array (R16, R40, R60, R103, R116, R132, R145, R147, R160, R168). The
lines, the moment, the count of free choices and the waiting commands are not the part's own volatile state. -/
def State.restart (s : State) (powered : Bool) (nv : Nonvolatile) : State :=
  let tables := Tables.load nv.tables
  { powered := powered, nowUs := s.nowUs, lines := s.lines, rack := RackLink.afterReset,
    timebase := { internal := true, lastEventUs := s.nowUs, periodMs := tables.config.work.periodMs },
    trunk := Trunk.afterReset tables.config.work.slotCount tables.slots.work,
    meters := Vector.ofFn (fun a =>
      { wild := Meter.afterReset (nv.saves[a].totals .wild), ctrl := Meter.afterReset (nv.saves[a].totals .ctrl) }),
    arms := Vector.replicate 8 Arm.afterReset, windows := Vector.replicate 4 StartWindow.closed,
    transfers := Vector.replicate 8 Transfer.released, tables := tables,
    store := StoreCtl.afterReset (allArms.any (fun a => nv.saves[a].broken)) (Vector.ofFn (fun a => nv.saves[a].chosen)),
    nv := nv, choices := s.choices, pending := s.pending }

/-- A reset: the operation under way is torn, everything else restarts (R16, R144, R153). -/
def State.resetPart (s : State) : State := s.restart true s.torn

/-- POWER_UP (R16). -/
def execPowerUp (s : State) : Host.Outcome State Fault Refusal := .next s.resetPart

/-- RST (R16). -/
def execRst (s : State) : Host.Outcome State Fault Refusal := .next (s.whenPowered State.resetPart)

/-- DEVICE_RESET (R159): follows the frame that carried the response of an accepted RESET_DEVICE. -/
def execDeviceReset (s : State) : Host.Outcome State Fault Refusal :=
  .next (s.whenPowered (fun t => if t.rack.resetDue then t.resetPart else t))

/-- POWER_DOWN (R153): the volatile state is lost, the operation under way torn (log entry 15). -/
def execPowerDown (s : State) : Host.Outcome State Fault Refusal := .next (s.restart false s.torn)

end Sys2Proof.Machine
end

