-- ==== Sys2Proof/Machine/Dispatch.lean ====
section
/-! DEFINITION. The meaning of each command: one direct call per row of the table. -/

namespace Sys2Proof.Machine

/-- What a command does to everything but the queue. -/
def exec (i : Instr) (s : State) : Host.Outcome State Fault Refusal :=
  match i with
  | .powerUp => Sys2Proof.Machine.execPowerUp s
  | .rst => Sys2Proof.Machine.execRst s
  | .rackFrameReceived elapsedUs frame => Sys2Proof.Machine.execRackFrameReceived elapsedUs frame s
  | .timebaseRackTimeout => Sys2Proof.Machine.execTimebaseRackTimeout s
  | .timebaseInternalPeriod => Sys2Proof.Machine.execTimebaseInternalPeriod s
  | .linkLoss => Sys2Proof.Machine.execLinkLoss s
  | .answerWindowClose word => Sys2Proof.Machine.execAnswerWindowClose word s
  | .lateWordDrop word => Sys2Proof.Machine.execLateWordDrop word s
  | .slotLost slot => Sys2Proof.Machine.execSlotLost slot s
  | .trunkDown => Sys2Proof.Machine.execTrunkDown s
  | .testEnd => Sys2Proof.Machine.execTestEnd s
  | .startWindowExpiry lane => Sys2Proof.Machine.execStartWindowExpiry lane s
  | .tempLost arm pos => Sys2Proof.Machine.execTempLost arm pos s
  | .ratioFault arm => Sys2Proof.Machine.execRatioFault arm s
  | .shotTimeout arm entry => Sys2Proof.Machine.execShotTimeout arm entry s
  | .holdTimeout arm => Sys2Proof.Machine.execHoldTimeout arm s
  | .armSettled arm => Sys2Proof.Machine.execArmSettled arm s
  | .settleLimit arm => Sys2Proof.Machine.execSettleLimit arm s
  | .saveComplete success => Sys2Proof.Machine.execSaveComplete success s
  | .commitComplete success => Sys2Proof.Machine.execCommitComplete success s
  | .permitLineChange arm active => Sys2Proof.Machine.execPermitLineChange arm active s
  | .estopChange active => Sys2Proof.Machine.execEstopChange active s
  | .certChange unlocked => Sys2Proof.Machine.execCertChange unlocked s
  | .authorize arm payload => Sys2Proof.Machine.execAuthorize arm payload s
  | .start arm payload => Sys2Proof.Machine.execStart arm payload s
  | .cancel arm payload => Sys2Proof.Machine.execCancel arm payload s
  | .clearFault arm payload => Sys2Proof.Machine.execClearFault arm payload s
  | .getSense arm payload => Sys2Proof.Machine.execGetSense arm payload s
  | .readRecord arm payload => Sys2Proof.Machine.execReadRecord arm payload s
  | .readTotals arm payload => Sys2Proof.Machine.execReadTotals arm payload s
  | .readCounters arm payload => Sys2Proof.Machine.execReadCounters arm payload s
  | .trunkTest arm payload => Sys2Proof.Machine.execTrunkTest arm payload s
  | .storeEnable arm payload => Sys2Proof.Machine.execStoreEnable arm payload s
  | .storeDisable arm payload => Sys2Proof.Machine.execStoreDisable arm payload s
  | .store arm payload => Sys2Proof.Machine.execStore arm payload s
  | .readTable arm payload => Sys2Proof.Machine.execReadTable arm payload s
  | .readStoreStatus arm payload => Sys2Proof.Machine.execReadStoreStatus arm payload s
  | .resetPrepare arm payload => Sys2Proof.Machine.execResetPrepare arm payload s
  | .resetDevice arm payload => Sys2Proof.Machine.execResetDevice arm payload s
  | .deviceReset => Sys2Proof.Machine.execDeviceReset s
  | .service arm payload => Sys2Proof.Machine.execService arm payload s
  | .serviceTimeout arm => Sys2Proof.Machine.execServiceTimeout arm s
  | .powerDown => Sys2Proof.Machine.execPowerDown s

end Sys2Proof.Machine
end

