-- ==== Sys2Proof/Safety.lean ====
section
/-! DEFINITION. What counts as a good state of the part and as the answer to a request, in the terms the statements use. -/

namespace Sys2Proof.Machine

/-! ## Table contents -/

/-- A recipe record lies in the ranges of R62 and R63. -/
def Recipe.InRange (r : Recipe) : Prop :=
  (r.name.length ≤ 16 ∧ ∀ b ∈ r.name, 32 ≤ b.toNat ∧ b.toNat ≤ 126) ∧ r.fraction ≤ 9000 ∧ r.alphaEthanol ≤ 2000 ∧
  r.alphaBase ≤ 2000 ∧ r.gain ≤ 200 ∧ r.trimLimit ≤ 500 ∧ (10 ≤ r.band ∧ r.band ≤ 500) ∧
  (50 ≤ r.checkVolume ∧ r.checkVolume ≤ 2000) ∧ (1 ≤ r.persistence ∧ r.persistence ≤ 500) ∧
  r.additives.length ≤ 4 ∧
  ∀ i ∈ r.additives, (1 ≤ i.dose ∧ i.dose ≤ 2000) ∧ (10 ≤ i.interval ∧ i.interval ≤ 1000) ∧
    1 ≤ i.tolerance ∧ i.tolerance ≤ 20

/-- The points of a curve meet the conditions of R65. -/
def curveInRange (points : List CurvePoint) : Prop :=
  points.length ≤ 8 ∧ (∀ q ∈ points, q.flow ≤ 6000 ∧ 95000 ≤ q.factor ∧ q.factor ≤ 105000) ∧
  points.Pairwise (fun q r => q.flow < r.flow)

/-- An arm entry lies in the ranges of R66. -/
def ArmEntry.InRange (e : ArmEntry) : Prop :=
  (100 ≤ e.wildK10 ∧ e.wildK10 ≤ 60000) ∧ (100 ≤ e.ctrlK10 ∧ e.ctrlK10 ≤ 60000) ∧ e.settings.wildMax ≤ 4000 ∧
  e.settings.ctrlMax ≤ 4000 ∧ e.settings.lowRate ≤ 4000 ∧ e.settings.highRate ≤ 4000 ∧
  (1 ≤ e.settings.rampLimit ∧ e.settings.rampLimit ≤ 500) ∧ e.settings.lowStart ≤ 5000 ∧ e.settings.topOff ≤ 5000 ∧
  e.settings.initialCloseAhead ≤ 200000 ∧ e.settings.closeAheadMax ≤ 200000 ∧ e.settings.overshootLimit ≤ 200000

/-- A device config record lies in the ranges of R68. -/
def DeviceConfig.InRange (d : DeviceConfig) : Prop :=
  (d.periodMs = 10 ∨ d.periodMs = 20) ∧ (d.slotCount = 16 ∨ d.slotCount = 32 ∨ d.slotCount = 64) ∧
  (5 ≤ d.linkLossLimit ∧ d.linkLossLimit ≤ 500) ∧ (10 ≤ d.tempHoldLimit ∧ d.tempHoldLimit ≤ 3000) ∧
  (10 ≤ d.startWindow ∧ d.startWindow ≤ 1000) ∧ (10 ≤ d.holdLimitS ∧ d.holdLimitS ≤ 3600) ∧
  (100 ≤ d.settleLimit ∧ d.settleLimit ≤ 3000) ∧ 1 ≤ d.unauthorizedL ∧ d.unauthorizedL ≤ 100

/-- Every field of a table entry's content lies in its range (R62, R63, R65, R66, R68). The ranges of the indices, codes and
flags, of the slot table (R71), the alias table (R161) and the protection record (R154) are those of their types. -/
def Content.InRange : Content → Prop
  | .recipe _ none => True
  | .recipe _ (some r) => r.InRange
  | .curve _ points => curveInRange points
  | .armEntry _ e => e.InRange
  | .slotTable _ => True
  | .aliasTable _ _ => True
  | .config d => d.InRange
  | .protection _ => True

/-- The code of a role (spec 02 section 2.1). -/
def Role.number : Role → Nat
  | .unused => 0
  | .wildMeter => 1
  | .ctrlMeter => 2
  | .wildValve => 3
  | .ctrlValve => 4
  | .inj k => 5 + k.val

/-- The 8 bytes of an additive item at an offset (spec 09 section 9.2). -/
def AdditiveItem.CarriedAt (i : AdditiveItem) (p : List Byte) (o : Nat) : Prop :=
  byteAt p o = i.injector.val ∧ numAt p (o + 1) 2 = i.dose ∧ numAt p (o + 3) 2 = i.interval ∧
  numAt p (o + 5) 2 = i.tolerance ∧ byteAt p (o + 7) = if i.stop then 0 else 1

/-- A recipe record in a payload, from its presence byte on (spec 09 section 9.2, R62, R63). -/
def Recipe.CarriedBy (r : Recipe) (p : List Byte) : Prop :=
  let n := r.name.length
  p.length = 22 + n + 8 * r.additives.length ∧ byteAt p 2 = 1 ∧ byteAt p 3 = n ∧ (p.drop 4).take n = r.name ∧
  (numAt p (4 + n) 2 = r.fraction ∧ byteAt p (6 + n) = (if r.ethanolControlled then 1 else 0) ∧
   numAt p (7 + n) 2 = r.alphaEthanol ∧ numAt p (9 + n) 2 = r.alphaBase ∧ numAt p (11 + n) 2 = r.gain ∧
   numAt p (13 + n) 2 = r.trimLimit ∧ numAt p (15 + n) 2 = r.band ∧ numAt p (17 + n) 2 = r.checkVolume ∧
   numAt p (19 + n) 2 = r.persistence) ∧
  byteAt p (21 + n) = r.additives.length ∧
  ∀ (k : Nat) (i : AdditiveItem), r.additives[k]? = some i → i.CarriedAt p (22 + n + 8 * k)

/-- The points of a curve in a payload (spec 09 section 9.2, R65). -/
def curveCarriedBy (points : List CurvePoint) (p : List Byte) : Prop :=
  p.length = 3 + 6 * points.length ∧ byteAt p 2 = points.length ∧
  ∀ (k : Nat) (q : CurvePoint), points[k]? = some q →
    numAt p (3 + 6 * k) 2 = q.flow ∧ numAt p (5 + 6 * k) 4 = q.factor

/-- An arm entry in a payload, in the order of R66 (spec 09 section 9.2). -/
def ArmEntry.CarriedBy (e : ArmEntry) (p : List Byte) : Prop :=
  p.length = 37 ∧ byteAt p 2 = (if e.enabled then 1 else 0) ∧ numAt p 3 2 = e.settings.lane.val ∧
  numAt p 5 2 = e.wildK10 ∧ numAt p 7 2 = e.ctrlK10 ∧ byteAt p 9 = e.wildCurve.val ∧ byteAt p 10 = e.ctrlCurve.val ∧
  numAt p 11 2 = e.settings.wildMax ∧ numAt p 13 2 = e.settings.ctrlMax ∧ numAt p 15 2 = e.settings.lowRate ∧
  numAt p 17 2 = e.settings.highRate ∧ numAt p 19 2 = e.settings.rampLimit ∧ numAt p 21 2 = e.settings.lowStart ∧
  numAt p 23 2 = e.settings.topOff ∧ numAt p 25 4 = e.settings.initialCloseAhead ∧
  numAt p 29 4 = e.settings.closeAheadMax ∧ numAt p 33 4 = e.settings.overshootLimit

/-- A device config record in a payload, in the order of R68 (spec 09 section 9.2). -/
def DeviceConfig.CarriedBy (d : DeviceConfig) (p : List Byte) : Prop :=
  p.length = 18 ∧ numAt p 2 2 = d.periodMs ∧ numAt p 4 2 = d.slotCount ∧ numAt p 6 2 = d.linkLossLimit ∧
  numAt p 8 2 = d.tempHoldLimit ∧ numAt p 10 2 = d.startWindow ∧ numAt p 12 2 = d.holdLimitS ∧
  numAt p 14 2 = d.settleLimit ∧ numAt p 16 2 = d.unauthorizedL

/-- A protection record in a payload (spec 09 section 9.2). -/
def Protection.CarriedBy (r : Protection) (p : List Byte) : Prop :=
  p.length = 6 ∧ byteAt p 2 = r.range.val ∧ byteAt p 3 = (if r.top then 1 else 0) ∧
  byteAt p 4 = (if r.complement then 1 else 0) ∧
  byteAt p 5 = match r.mode with | .modeOpen => 0 | .switched => 1 | .lockedToRestart => 2 | .permanent => 3

/-- A payload carries a table entry's content: target code, index, and every field at its offset (spec 09 section 9.2; the
aliases as in R161). -/
def Content.CarriedBy (c : Content) (p : List Byte) : Prop :=
  match c with
  | .recipe i none => byteAt p 0 = 0 ∧ byteAt p 1 = i.val ∧ byteAt p 2 = 0 ∧ p.length = 3
  | .recipe i (some r) => byteAt p 0 = 0 ∧ byteAt p 1 = i.val ∧ r.CarriedBy p
  | .curve i points => byteAt p 0 = 1 ∧ byteAt p 1 = i.val ∧ curveCarriedBy points p
  | .armEntry a e => byteAt p 0 = 2 ∧ byteAt p 1 = a.val ∧ e.CarriedBy p
  | .slotTable t =>
    byteAt p 0 = 3 ∧ byteAt p 1 = 0 ∧ p.length = 130 ∧
    ∀ i : Fin 64, byteAt p (2 + 2 * i.val) = t[i].arm.val ∧ byteAt p (3 + 2 * i.val) = t[i].role.number
  | .aliasTable a t =>
    byteAt p 0 = 4 ∧ byteAt p 1 = a.val ∧ p.length = 10 ∧
    ∀ k : Fin 8, byteAt p (2 + k.val) = match t[k] with | none => 255 | some i => i.val
  | .config d => byteAt p 0 = 5 ∧ byteAt p 1 = 0 ∧ d.CarriedBy p
  | .protection r => byteAt p 0 = 6 ∧ byteAt p 1 = 0 ∧ r.CarriedBy p

/-- The length of a STORE payload is the one that its own target, presence, name length and counts give (spec 09 section
9.2). -/
def storeLengthRight (p : List Byte) : Prop :=
  (byteAt p 0 = 0 ∧ byteAt p 2 = 0 ∧ p.length = 3) ∨
  (byteAt p 0 = 0 ∧ byteAt p 2 = 1 ∧ p.length = 22 + byteAt p 3 + 8 * byteAt p (21 + byteAt p 3)) ∨
  (byteAt p 0 = 1 ∧ p.length = 3 + 6 * byteAt p 2) ∨ (byteAt p 0 = 2 ∧ p.length = 37) ∨
  (byteAt p 0 = 3 ∧ p.length = 130) ∨ (byteAt p 0 = 4 ∧ p.length = 10) ∨ (byteAt p 0 = 5 ∧ p.length = 18) ∨
  (byteAt p 0 = 6 ∧ p.length = 6)

/-! ## Invariants -/

/-- Outside RUNNING both set-points of an arm are 0 (R77). -/
def Arm.setpointsRest (x : Arm) : Prop := x.state ≠ .running → x.wildSet = 0 ∧ x.ratio.ctrlSet = 0

/-- Every arm outside RUNNING has both set-points at 0 (R77). -/
def State.SetpointsRest (s : State) : Prop := ∀ a, (s.arm a).setpointsRest

/-- The residues of a meter lie below their divisors (R59). -/
def Meter.residuesBelow (m : Meter) (k10 : Nat) : Prop := m.pulseRes < k10 ∧ m.grossRes < 100000 ∧ m.netRes < 100000

/-- The litres of a totalizer pair are at most 999,999,999 and its mL residues at most 999 (R56). -/
def MeterTotals.inRange (t : MeterTotals) : Prop :=
  t.grossL < 1000000000 ∧ t.grossMl < 1000 ∧ t.netL < 1000000000 ∧ t.netMl < 1000

/-- Both totalizer pairs of a save image are in range (R56, R143). -/
def SaveImage.inRange (i : SaveImage) : Prop := i.wild.inRange ∧ i.ctrl.inRange

/-- A last-batch record keeps a name of at most 16 characters and at most four additive items (R62, R63, R137). -/
def Record.fits (r : Record) : Prop := r.name.length ≤ 16 ∧ r.additives.length ≤ 4

/-- The counters lie in their ranges: rack errors (R3), trunk errors (R28), the echo test (R36, R37), the metrological
change counter (R157). -/
def State.CountersInRange (s : State) : Prop :=
  s.rack.errors ≤ 255 ∧ s.trunk.crcErrors ≤ 255 ∧ s.trunk.staleErrors ≤ 255 ∧ s.trunk.test.errors ≤ 65535 ∧
  s.trunk.test.framesRun + s.trunk.test.remaining ≤ 60000 ∧ s.nv.metroCounter ≤ 65535

/-- Every totalizer is in range, in the meters, in the saved copies and in a save under way (R56, R143). -/
def State.TotalsInRange (s : State) : Prop :=
  (∀ a p, (s.meter a p).totals.inRange) ∧
  (∀ (a : Fin 8) (c : Fin 2) (i : SaveImage), s.nv.saves[a].get c = .holds i → i.inRange) ∧
  ∀ (a : Fin 8) (c : Fin 2) (i : SaveImage), s.store.underWay = some (.save a c i) → i.inRange

/-- Every working copy, and every recipe a batch copied, passes the range checks of STORE (R62, R63, R65, R66, R68). -/
def State.TablesInRange (s : State) : Prop :=
  (∀ k, (s.tables.content k).InRange) ∧
  (∀ (a : Fin 8) (c : Context), (s.arm a).ctx = some c → c.recipe.InRange) ∧
  (∀ a : Fin 8, (s.arm a).entries.length ≤ 4) ∧ ∀ (a : Fin 8) (r : Record), (s.arm a).last = some r → r.fits

/-- Counters, residues, totalizers, tables and records lie in the ranges that the spec gives them. -/
def State.InRange (s : State) : Prop :=
  s.CountersInRange ∧ (∀ a p, (s.meter a p).residuesBelow ((s.armEntry a).k10 p)) ∧ s.TotalsInRange ∧ s.TablesInRange

/-- An arm has a batch context, a current record and a Ratio Controller mode exactly while it has an open batch, and no
additive entry without one (R80, R85, R99, R104, R130, R133). -/
def Arm.contextMatches (x : Arm) : Prop :=
  (x.isOpen = true ↔ x.ctx.isSome = true) ∧ (x.isOpen = true ↔ x.current.isSome = true) ∧
  (x.isOpen = true ↔ x.ratio.mode ≠ .none) ∧ (x.isOpen = false → x.entries = [])

/-- `contextMatches` for every arm. -/
def State.ContextsMatch (s : State) : Prop := ∀ a, (s.arm a).contextMatches

/-- The start windows agree with the arms: an arm waits in the window of a lane exactly while it is START_PENDING with that
lane in its snapshot, and once; a window is open exactly when its set is not empty (R83, R84). -/
def State.WindowsMatch (s : State) : Prop :=
  ∀ l : Fin 4,
    (∀ a, a ∈ s.windows[l].pending ↔
      (s.arm a).state = .startPending ∧ ∃ c, (s.arm a).ctx = some c ∧ c.settings.lane = l) ∧
    s.windows[l].pending.Nodup ∧ (s.windows[l].isOpen = true ↔ s.windows[l].pending ≠ [])

/-- The number of commits waiting in a queue. -/
def commitsIn (q : List QueuedOp) : Nat := q.countP (fun op => match op with | .commit _ => true | .save _ => false)

/-- The number of commits under way. -/
def commitUnderWay : Option RunningOp → Nat
  | some (.commit _) => 1
  | some (.save _ _ _) | none => 0

/-- The store engine's queue: an idle engine has nothing waiting, each arm has at most one save waiting, there is one
commit exactly while store status is BUSY and none otherwise (R143, R152, R153). -/
def StoreCtl.QueueGood (c : StoreCtl) : Prop :=
  (c.underWay = none → c.queue = []) ∧ (∀ a, c.queue.count (.save a) ≤ 1) ∧
  commitUnderWay c.underWay + commitsIn c.queue = (if c.status = .busy then 1 else 0)

/-- A transaction is HELD exactly while the transfer of its arm is in flight with its response wanted, and no assembly is
open while a transaction lasts (R14, R162, R163). -/
def State.HeldMatches (s : State) : Prop :=
  (∀ a : Fin 8, s.transfers[a].wanted = true ↔ s.rack.transaction = .held a) ∧
  (∀ a : Fin 8, s.transfers[a].wanted = true → s.transfers[a].inFlight = true) ∧
  (s.rack.transaction ≠ .none → s.rack.assembly = none)

/-! ## Requests -/

/-- The row of a request. -/
def Instr.ofRequest (code : RequestCode) (arm : Byte) (p : List Byte) : Instr :=
  match code with
  | .authorize => .authorize arm p
  | .start => .start arm p
  | .cancel => .cancel arm p
  | .clearFault => .clearFault arm p
  | .getSense => .getSense arm p
  | .readRecord => .readRecord arm p
  | .readTotals => .readTotals arm p
  | .readCounters => .readCounters arm p
  | .storeEnable => .storeEnable arm p
  | .storeDisable => .storeDisable arm p
  | .store => .store arm p
  | .readTable => .readTable arm p
  | .readStoreStatus => .readStoreStatus arm p
  | .service => .service arm p
  | .trunkTest => .trunkTest arm p
  | .resetPrepare => .resetPrepare arm p
  | .resetDevice => .resetDevice arm p

/-- The management channel takes a request: the part has its supply and no transaction is in progress (R11, R14). An
assembly may be open: what becomes of it is the DESIGN CHOICE of log entry 14. -/
def State.Ready (s : State) : Prop := s.powered = true ∧ s.rack.transaction = .none

/-- The arm field of an arm. -/
def armByte (a : Fin 8) : Byte := BitVec.ofNat 8 a.val

/-- The arm field of a device-directed request. -/
def deviceByte : Byte := 255

/-- A response record ready for sending: code, status, sense, flags, length, payload (spec 01 section 1.1). DESIGN CHOICE
(log entry 14): a request command apart from a frame gives up an open assembly, and the discard flag in the response is
the one held before. -/
def RackLink.sendsRecord (r : RackLink) (code : RequestCode) (refused : Bool) (sense : Sense) (payload : List Byte)
    (thenReset : Bool) : RackLink :=
  { r with
    assembly := none, discard := false,
    transaction := .sending
      ([BitVec.ofNat 8 code.code, if refused then 1 else 0, BitVec.ofNat 8 sense.code, if r.discard then 1 else 0,
        BitVec.ofNat 8 payload.length] ++ payload) 0 thenReset }

/-- What a decided STORE leaves of the latch, and a decided request of the prepared flag (R149, R159). -/
def StoreCtl.decided (c : StoreCtl) (code : RequestCode) (prepare : Bool) : StoreCtl :=
  { c with latch := if code = .store then .clear else c.latch, prepared := prepare }

/-- The state with an ACCEPTED response to a request (R14, R140, R149, R159); an open assembly is given up as in log
entry 14. -/
def State.answered (s : State) (code : RequestCode) (payload : List Byte) : State :=
  { s with rack := s.rack.sendsRecord code false .none payload false,
           store := s.store.decided code (code == .resetPrepare) }

/-- The state with a REFUSED response to a request of the given arm field (R139, R140, R149, R159); an open assembly is
given up as in log entry 14. -/
def State.refused (s : State) (code : RequestCode) (arm : Byte) (sense : Sense) : State :=
  let t := if h : arm.toNat < 8 then s.modArm ⟨arm.toNat, h⟩ (fun x => { x with sense := sense })
           else { s with rack := { s.rack with deviceSense := sense } }
  { t with rack := t.rack.sendsRecord code true sense [] false, store := t.store.decided code false }

/-- The segments of the upstream frames that carry a response, from the next frame on (R15). -/
def Transaction.segments : Nat → Transaction → List (Nat × List Byte)
  | 0, _ => []
  | n + 1, t => (t.segment.1, t.segment.2.1) :: Transaction.segments n t.segment.2.2.1

/-- A frame passes every check of R1 at the given moment. -/
def State.passesChecks (s : State) (now : Nat) (f : List Byte) : Prop :=
  f.take 2 = [0xD2, 0x4B] ∧ byteAt f 11 ≤ 4 ∧ byteAt f 12 ≤ 32 ∧ (byteAt f 11 = 0 → byteAt f 12 = 0) ∧
  f.length = 15 + byteAt f 12 ∧
  [(crc16 ((f.drop 2).take (11 + byteAt f 12))).extractLsb' 8 8,
   (crc16 ((f.drop 2).take (11 + byteAt f 12))).extractLsb' 0 8] = f.drop (13 + byteAt f 12) ∧
  (∀ l, s.rack.last = some l → s.timebase.periodMs * 1000 ≤ 2 * (now - l.atUs))

/-- A cause that ends a flowing batch has reached the arm (R96): CLOSING, set-points 0, the delivered held. -/
def Arm.ClosedBy (x y : Arm) (c : EndCause) : Prop :=
  y.state = .closing ∧ y.endReason = some c ∧ y.wildSet = 0 ∧ y.ratio.ctrlSet = 0 ∧ y.ratio.limited = false ∧
  y.deliveredAtClose = x.delivered ∧ y.zeroCount = 0 ∧ y.settleAge = 0 ∧ y.phase = .none ∧
  y.sense = (if c.latching then c.sense else x.sense) ∧ y.wild = x.wild ∧ y.ctrl = x.ctrl ∧ y.ctx = x.ctx ∧
  y.batchNumber = x.batchNumber ∧ y.startFrame = x.startFrame ∧ y.holdCount = x.holdCount ∧ y.secondary = x.secondary ∧
  y.ring = x.ring ∧ y.unauthorized = x.unauthorized ∧ y.last = x.last ∧ y.toggle = x.toggle

/-- The arm's batch flows or is held (R96). -/
def ArmState.flowing (st : ArmState) : Prop := st = .running ∨ st = .holding ∨ st = .held

/-- One end cause reaches the arm: it ends a flowing batch, joins the secondary causes of a closing one once, and has no
effect otherwise (R96, R97). -/
def Arm.Takes (x y : Arm) (c : EndCause) : Prop :=
  (x.state.flowing → x.ClosedBy y c) ∧
  (x.state = .closing →
    y = if x.endReason = some c ∨ c ∈ x.secondary then x
        else { x with secondary := x.secondary ++ [c], sense := if c.latching then c.sense else x.sense }) ∧
  (¬ x.state.flowing → x.state ≠ .closing → y = x)

/-- End causes reach the arm one after the other. -/
def Arm.TakesAll (x y : Arm) : List EndCause → Prop
  | [] => y = x
  | c :: rest => ∃ z : Arm, x.Takes z c ∧ z.TakesAll y rest

/-! ## Batches -/

/-- An AUTHORIZE payload (R79). -/
def authorizePayload (form ref0 ref1 ref2 : Byte) (preset : Nat) (basis : Byte) (txid : Nat) : List Byte :=
  [form, ref0, ref1, ref2] ++ beBytes 2 preset ++ [basis] ++ beBytes 4 txid

/-- A reference names a recipe slot, as a SLOT or as a KEY of grade, season and package (R61, R72, R79). -/
def referenceNames (form ref0 ref1 ref2 : Byte) (i : Fin 64) : Prop :=
  (form = 0 ∧ ref0.toNat = i.val) ∨
  (form = 1 ∧ ref0.toNat ≤ 7 ∧ 1 ≤ ref1.toNat ∧ ref1.toNat ≤ 4 ∧ ref2.toNat ≤ 1 ∧
    i.val = (ref0.toNat * 4 + (ref1.toNat - 1)) * 2 + ref2.toNat)

/-- A slot is assigned to an arm and a role under a slot count and a slot table (R29). -/
def Assigned (slotCount : Nat) (table : Vector SlotEntry 64) (i : Fin 64) (a : Fin 8) (r : Role) : Prop :=
  i.val < slotCount ∧ r ≠ .unused ∧ table[i] = { arm := a, role := r }

/-- The slot below the slot count in force that the working slot table gives to an arm and a role (R29, R74). -/
def State.assigns (s : State) (i : Fin 64) (a : Fin 8) (r : Role) : Prop :=
  i.val < s.config.slotCount ∧ r ≠ .unused ∧ s.slotTable[i] = { arm := a, role := r }

/-- The roles that a batch of an arm needs (R74). -/
def needs (r : Recipe) (role : Role) : Prop :=
  role = .wildMeter ∨ role = .ctrlMeter ∨ role = .wildValve ∨ role = .ctrlValve ∨
  ∃ item ∈ r.additives, role = .inj item.injector

/-- A recipe passes the checks of R73. -/
def Recipe.Fits (r : Recipe) : Prop :=
  (r.fraction = 0 → r.ethanolControlled = true) ∧
  (0 < r.fraction → 1000 ≤ r.ctrlFraction ∧ r.ctrlFraction ≤ 9000) ∧
  (∀ i ∈ r.additives, 10 ≤ i.dose * i.interval / 100 ∧ i.dose * i.interval / 100 ≤ 2500) ∧
  (r.additives.map (·.injector)).Nodup

/-- The tables and the devices let a batch with a recipe open on an arm (R74, R75). -/
def State.Equipped (s : State) (a : Fin 8) (r : Recipe) : Prop :=
  (∀ role, needs r role → ∃ i, s.trunk.slots[i].up = true ∧ ∀ j, s.assigns j a role ↔ j = i) ∧
  s.tables.curves[(s.armEntry a).wildCurve].work ≠ [] ∧ s.tables.curves[(s.armEntry a).ctrlCurve].work ≠ []

/-- The start conditions of an arm with a batch context (R81). -/
def State.MayStart (s : State) (a : Fin 8) (c : Context) : Prop :=
  s.rack.levels[a].runPermit = true ∧ s.rack.levels[a].hold = false ∧ s.lines.permit[a] = true ∧
  s.lines.estop = false ∧ s.trunk.state = .up ∧
  ∀ i role, needs c.recipe role → s.assigns i a role → s.trunk.slots[i].up = true

/-- The sense code of the first start condition that an arm fails, when it fails one (R81). -/
def State.startCode (s : State) (a : Fin 8) : Sense :=
  if s.rack.levels[a].runPermit = false then .runPermitAbsent
  else if s.rack.levels[a].hold = true then .holdActive
  else if s.lines.permit[a] = false then .permitAbsent
  else if s.lines.estop = true then .estop
  else .deviceAbsent

/-- The arm has entered RUNNING in a frame (R77, R82). -/
def Arm.StartedAs (x y : Arm) (c : Context) (frame : Nat) : Prop :=
  y = { x with
    state := .running, batchNumber := if x.batchNumber < 65535 then x.batchNumber + 1 else 1, startFrame := frame,
    phase := if x.remaining ≤ c.settings.topOff * 1000 then .topOff else .startLow, wildSet := 0,
    ratio := { x.ratio with ctrlSet := 0 },
    current := x.current.map (fun r => { r with
      state := .started, batchNumber := if x.batchNumber < 65535 then x.batchNumber + 1 else 1,
      startFrame := frame }) }

/-- An additive entry closed at finalize for a net delivered volume: an outstanding shot counted MISSED, the target
computed again, the outcome (R130). -/
def AdditiveEntry.ClosedAs (e : AdditiveEntry) (n : Nat) (i : AdditiveRecord) : Prop :=
  i.injector = e.item.injector ∧ i.target = n * e.item.dose / 100000 ∧ i.injected = e.injected ∧ i.good = e.good ∧
  i.short = e.short ∧ i.long = e.long ∧
  i.missed = (if e.shot = none then e.missed else if e.missed < 65535 then e.missed + 1 else 65535) ∧
  i.outcome =
    (if e.state = .failed then .failed
     else if ((e.injected : Int) - (n * e.item.dose / 100000 : Nat)).natAbs * 100 ≤
       n * e.item.dose / 100000 * e.item.tolerance then .ok
     else .outOfTol)

/-- The average temperature of a stream account: absent for gross total 0, otherwise the weight over the gross total
rounded to the nearest integer, halves away from zero (R135). -/
def Account.Averages (acc : Account) (t : Option Int) : Prop :=
  (acc.gross = 0 ∧ t = none) ∨
  (0 < acc.gross ∧ ∃ q, t = some q ∧ (2 * (acc.gross * q - acc.weight)).natAbs ≤ acc.gross ∧
    (2 * (acc.gross * q - acc.weight) = acc.gross → 0 < acc.weight) ∧
    (2 * (acc.gross * q - acc.weight) = -acc.gross → acc.weight < 0))

/-- A stream group of the current record, read from its owners (R133, R134). -/
def CurrentRecord.liveStream (r : CurrentRecord) (c : Context) (p : StreamPos) (acc : Account) (avg : Option Int) :
    StreamRecord :=
  { ethanol := (match p with | .wild => !c.recipe.ethanolControlled | .ctrl => c.recipe.ethanolControlled),
    gross := acc.gross, net := acc.net, avgTemp := avg,
    k10 := (match p with | .wild => r.wildK10 | .ctrl => r.ctrlK10),
    curve := (match p with | .wild => r.wildCurve | .ctrl => r.ctrlCurve), factor := acc.lastFactor }

/-- A batch has finalized on an arm (R99, R130, R136, R137): the arm, and the completed record with every field of spec 08
section 8.1. Batch number, start frame, K10 and curves are those of the current record; the averages are those of R135, the
final fraction and the ratio status those of R115. -/
def Arm.FinalizedAs (x y : Arm) (a : Fin 8) (c : Context) (frame : Nat) (reason : EndCause) (secondary : List EndCause) :
    Prop :=
  let delivered := if c.netBasis then x.wild.net + x.ctrl.net else x.wild.gross + x.ctrl.gross
  y.state = (if reason.latching || secondary.any EndCause.latching then .faulted else .idle) ∧ y.ctx = none ∧
  y.current = none ∧ y.entries = [] ∧ y.ratio.mode = .none ∧ y.toggle = !x.toggle ∧
  y.batchNumber = x.batchNumber ∧ y.wild = x.wild ∧ y.ctrl = x.ctrl ∧
  y.ring = (if reason = .normal ∧ secondary = [] then
    (x.ring ++ [min (delivered - x.deliveredAtClose) c.settings.closeAheadMax]).drop (x.ring.length + 1 - 4)
    else x.ring) ∧
  let n := x.wild.net + x.ctrl.net
  let ethanol := if c.recipe.ethanolControlled then x.ctrl.net else x.wild.net
  let checked := x.ratio.mode = .ratio ∧ c.recipe.checkVolume * 1000 ≤ n ∧ 0 < n
  let outside := c.recipe.band < Int.natAbs (((ethanol * 10000 / n : Nat) : Int) - c.recipe.fraction)
  ∃ (r : CurrentRecord) (wildAvg ctrlAvg : Option Int) (additives : List AdditiveRecord),
    x.current = some r ∧ x.wild.Averages wildAvg ∧ x.ctrl.Averages ctrlAvg ∧
    additives.length = x.entries.length ∧
    (∀ (k : Nat) (e : AdditiveEntry), x.entries[k]? = some e → ∃ i, additives[k]? = some i ∧ e.ClosedAs n i) ∧
    y.last = some {
      state := .complete, arm := a, batchNumber := r.batchNumber, txid := c.txid, slot := c.slot, name := c.recipe.name,
      presetMl := c.presetMl, netBasis := c.netBasis, startFrame := r.startFrame, endFrame := frame,
      wild := r.liveStream c .wild x.wild wildAvg, ctrl := r.liveStream c .ctrl x.ctrl ctrlAvg,
      finalFraction := if n = 0 then none else some (ethanol * 10000 / n),
      ratioStatus := if checked then (if outside then .outOfBand else .inBand) else .notChecked,
      maxDev := x.ratio.maxDev, remaining := c.presetMl - delivered, overshoot := delivered - c.presetMl,
      overshootFlag := decide (c.settings.overshootLimit < delivered - c.presetMl), closeAhead := c.closeAhead,
      overrun := delivered - x.deliveredAtClose, holdCount := x.holdCount, endReason := some reason,
      secondary := secondary, metro := c.metro, additives := additives }

/-- A totalizer save for an arm waits or is under way (R143). -/
def State.SavePending (s : State) (a : Fin 8) : Prop :=
  QueuedOp.save a ∈ s.store.queue ∨ ∃ c image, s.store.underWay = some (.save a c image)

/-- The copy and the image of a save of an arm that begins in a state: the totalizers as they stand; copy 0 with number 1
where the entry has no latest copy, otherwise the copy that is not the latest, with the number after that one's (R143). -/
def State.SaveBegins (s : State) (a : Fin 8) (c : Fin 2) (image : SaveImage) : Prop :=
  image.wild = (s.meter a .wild).totals ∧ image.ctrl = (s.meter a .ctrl).totals ∧
  (s.store.latest[a] = none → c = 0 ∧ image.seq = 1) ∧
  ∀ d, s.store.latest[a] = some d →
    c = 1 - d ∧ ∀ last, s.nv.saves[a].get d = .holds last → image.seq = (last.seq + 1) % 4294967296

/-! ## Stores -/

/-- The number of recipe slots that a range code counts (R154). -/
def Protection.counted (p : Protection) : Nat :=
  match p.range.val with
  | 0 => 0
  | 1 => 1
  | 2 => 2
  | 3 => 8
  | 4 => 16
  | 5 => 32
  | 6 => 48
  | _ => 64

/-- A protection record protects a recipe slot: the first or the last so many slots, or with the complement flag all the
others (R154). -/
def Protection.Protects (p : Protection) (i : Fin 64) : Prop :=
  (p.complement = false ∧ ((p.top = false ∧ i.val < p.counted) ∨ (p.top = true ∧ 64 ≤ i.val + p.counted))) ∨
  (p.complement = true ∧ ((p.top = false ∧ p.counted ≤ i.val) ∨ (p.top = true ∧ i.val + p.counted < 64)))

/-- A STORE is metrological: a curve, or an arm entry with another K10 or curve index (R156). -/
def State.Metrological (s : State) (c : Content) : Prop :=
  (∃ i points, c = .curve i points) ∨
  ∃ a e, c = .armEntry a e ∧
    (e.wildK10 ≠ (s.armEntry a).wildK10 ∨ e.ctrlK10 ≠ (s.armEntry a).ctrlK10 ∨
     e.wildCurve ≠ (s.armEntry a).wildCurve ∨ e.ctrlCurve ≠ (s.armEntry a).ctrlCurve)

/-- Condition 4 of R150. -/
def State.StoreBadMode (s : State) (c : Content) : Prop :=
  (s.store.latch = .working ∧ (s.Metrological c ∨ ∃ r : Protection, c = .protection r ∧ r.mode = .permanent)) ∨
  (s.store.latch = .persist ∧ ∃ r : Protection, c = .protection r ∧ r.mode = .lockedToRestart)

/-- Condition 5 of R150, with R154 and R155. -/
def State.StoreProtected (s : State) (c : Content) : Prop :=
  (∃ i r, c = .recipe i r ∧ s.tables.protection.work.Protects i) ∨
  ∃ r, c = .protection r ∧
    (s.tables.protection.work.mode = .lockedToRestart ∨ s.tables.protection.work.mode = .permanent)

/-- Condition 6 of R150, with R155 and R156. -/
def State.StoreCertLocked (s : State) (c : Content) : Prop :=
  s.lines.certUnlocked = false ∧
  (s.Metrological c ∨ ∃ r, c = .protection r ∧ s.tables.protection.work.mode = .switched)

/-- Condition 7 of R150, with R156. -/
def State.StoreBatchesOpen (s : State) (c : Content) : Prop :=
  (∃ t, c = .slotTable t ∧ ∃ a, (s.arm a).isOpen = true) ∨
  (∃ i points, c = .curve i points ∧
    ∃ a, (s.arm a).isOpen = true ∧ ((s.armEntry a).wildCurve = i ∨ (s.armEntry a).ctrlCurve = i)) ∨
  (∃ a e, c = .armEntry a e ∧ s.Metrological c ∧ (s.arm a).isOpen = true) ∨
  ∃ r, c = .config r ∧ (r.periodMs ≠ s.config.periodMs ∨ r.slotCount ≠ s.config.slotCount) ∧
    ∃ a, (s.arm a).isOpen = true

/-! ## Records -/

/-- The bytes at an offset carry a number that fits their width, most significant byte first (spec 00 section 5). What
they carry for one that does not fit is log entry 8. -/
def Carries (p : List Byte) (offset width v : Nat) : Prop := v < 256 ^ width → numAt p offset width = v

/-- The 18 bytes of a stream group at an offset (spec 08 section 8.1). -/
def StreamRecord.CarriedAt (r : StreamRecord) (p : List Byte) (o : Nat) : Prop :=
  byteAt p o = (if r.ethanol then 1 else 0) ∧ Carries p (o + 1) 4 r.gross ∧ Carries p (o + 5) 4 r.net ∧
  (r.avgTemp = none → numAt p (o + 9) 2 = 0x8000) ∧
  (∀ t, r.avgTemp = some t → -32768 ≤ t → t ≤ 32767 → signed16 (numAt p (o + 9) 2) = t) ∧
  Carries p (o + 11) 2 r.k10 ∧ byteAt p (o + 13) = r.curve.val ∧ Carries p (o + 14) 4 r.factor

/-- The 18 bytes of an additive item at an offset (spec 08 section 8.1). -/
def AdditiveRecord.CarriedAt (r : AdditiveRecord) (p : List Byte) (o : Nat) : Prop :=
  byteAt p o = r.injector.val ∧ Carries p (o + 1) 4 r.target ∧ Carries p (o + 5) 4 r.injected ∧
  Carries p (o + 9) 2 r.good ∧ Carries p (o + 11) 2 r.short ∧ Carries p (o + 13) 2 r.long ∧
  Carries p (o + 15) 2 r.missed ∧
  byteAt p (o + 17) = (match r.outcome with | .absent => 0 | .ok => 1 | .outOfTol => 2 | .failed => 3)

/-- A record in the order of spec 08 section 8.1, every field at its offset; `n` is the length of the name. -/
def Record.CarriedBy (r : Record) (p : List Byte) : Prop :=
  let n := r.name.length
  p.length = 93 + n + 18 * r.additives.length ∧
  (byteAt p 0 = (match r.state with | .absent => 0 | .authorized => 1 | .started => 2 | .closing => 3 | .complete => 4) ∧
   byteAt p 1 = r.arm.val ∧ Carries p 2 2 r.batchNumber ∧ Carries p 4 4 r.txid ∧ byteAt p 8 = r.slot.val ∧
   byteAt p 9 = r.slot.val / 8 ∧ byteAt p 10 = r.slot.val / 2 % 4 + 1 ∧ byteAt p 11 = r.slot.val % 2 ∧
   byteAt p 12 = n ∧ (p.drop 13).take n = r.name) ∧
  (Carries p (13 + n) 4 r.presetMl ∧ byteAt p (17 + n) = (if r.netBasis then 1 else 0) ∧
   Carries p (18 + n) 4 r.startFrame ∧ Carries p (22 + n) 4 r.endFrame ∧ r.wild.CarriedAt p (26 + n) ∧
   r.ctrl.CarriedAt p (44 + n)) ∧
  (Carries p (62 + n) 2 (r.finalFraction.getD 0xFFFF) ∧
   byteAt p (64 + n) =
     (match r.ratioStatus with | .absent => 0 | .notChecked => 1 | .inBand => 2 | .outOfBand => 3) ∧
   Carries p (65 + n) 4 r.maxDev ∧ Carries p (69 + n) 4 r.remaining ∧ Carries p (73 + n) 4 r.overshoot ∧
   byteAt p (77 + n) = (if r.overshootFlag then 1 else 0) ∧ Carries p (78 + n) 4 r.closeAhead ∧
   Carries p (82 + n) 4 r.overrun ∧ Carries p (86 + n) 1 r.holdCount ∧
   byteAt p (87 + n) = (match r.endReason with | none => 0 | some c => c.sense.code) ∧
   (∀ j, (numAt p (88 + n) 2).testBit j = true ↔
     ∃ c ∈ r.secondary, j = (if c = .estop then 15 else c.sense.code - 32)) ∧
   Carries p (90 + n) 2 r.metro ∧ byteAt p (92 + n) = r.additives.length) ∧
  ∀ (k : Nat) (i : AdditiveRecord), r.additives[k]? = some i → i.CarriedAt p (93 + n + 18 * k)

/-! ## Metering -/

/-- The constants a meter converts with: K10 and the curve of the arm entry, the frame period in force, and Qmax and the
coefficient from the batch context while a batch is open, from the arm entry and 0 at other times (R41, R45). -/
def State.ConvertsWith (s : State) (a : Fin 8) (p : StreamPos) (k : MeterConstants) : Prop :=
  k.periodMs = s.timebase.periodMs ∧
  k.k10 = (match p with | .wild => (s.armEntry a).wildK10 | .ctrl => (s.armEntry a).ctrlK10) ∧
  k.points =
    (s.tables.curves[match p with | .wild => (s.armEntry a).wildCurve | .ctrl => (s.armEntry a).ctrlCurve]).work ∧
  ((∃ c, (s.arm a).isOpen = true ∧ (s.arm a).ctx = some c ∧
      k.qmax = (match p with | .wild => c.settings.wildMax | .ctrl => c.settings.ctrlMax) ∧
      k.alpha = if (c.recipe.ethanolControlled = true ↔ p = .ctrl) then c.recipe.alphaEthanol else c.recipe.alphaBase) ∨
    (((s.arm a).isOpen = false ∨ (s.arm a).ctx = none) ∧ k.alpha = 0 ∧
      k.qmax =
        (match p with | .wild => (s.armEntry a).settings.wildMax | .ctrl => (s.armEntry a).settings.ctrlMax)))

/-- A processed sample is a seed: no last accepted total, or the lost mark without an open batch, or a meter that is not
converting (R41, R43). -/
def State.Seeds (s : State) (a : Fin 8) (p : StreamPos) : Prop :=
  (s.meter a p).lastTotal = none ∨ ((s.meter a p).lost = true ∧ (s.arm a).isOpen = false) ∨
  ((s.arm a).isOpen = false ∧ (s.armEntry a).enabled = false)

/-- A new total gives a delta above the plausibility limit: 1.5 times the pulses of one frame at Qmax, rounded up, for each
frame of the gap (R44, R45). -/
def State.AboveLimit (s : State) (a : Fin 8) (p : StreamPos) (total : Nat) : Prop :=
  ∃ k last, s.ConvertsWith a p k ∧ (s.meter a p).lastTotal = some last ∧
    (k.qmax * 3 * k.k10 * k.periodMs + 1199999) / 1200000 *
      ((s.trunk.frameCounter + 4294967296 - (s.meter a p).lastFrame) % 4294967296) < (total + 65536 - last) % 65536

/-- A processed sample of a meter: the meter after it, before its settlement, and the increment set handed over. A seed and
a total above the limit give zero increments; any other gives IV, GV and NV, each the floor of its division with the
remainder carried (R43 to R50, R52, R53, R55, R56). -/
def State.Samples (s : State) (a : Fin 8) (p : StreamPos) (word : MeterWord) (u : Meter) (v : Increment) : Prop :=
  let m := s.meter a p
  let uncounted := s.Seeds a p ∨ s.AboveLimit a p word.total
  (u.lastTotal = some word.total ∧ u.lastFrame = s.trunk.frameCounter ∧ u.lost = false ∧ u.sample = some v.iv ∧
    u.window = m.window.drop 1 ++ [v.iv] ∧ u.flow = min 65535 (u.window.sum * 60 / (8 * s.timebase.periodMs)) ∧
    u.settledFrame = m.settledFrame) ∧
  (if -5000 ≤ word.temp ∧ word.temp ≤ 7000 ∧ word.status ≠ .fail then u.temp = some word.temp ∧ u.age = 0
   else u.temp = m.temp ∧ u.age = if m.age < 3000 then m.age + 1 else 3000) ∧
  v.temp = u.temp.getD 1500 ∧ v.factor = u.factor ∧
  (uncounted →
    v.iv = 0 ∧ v.gv = 0 ∧ v.nv = 0 ∧ u.factor = m.factor ∧ u.pulseRes = m.pulseRes ∧ u.grossRes = m.grossRes ∧
    u.netRes = m.netRes ∧ u.totals = m.totals) ∧
  (¬ uncounted → ∀ k last, s.ConvertsWith a p k → m.lastTotal = some last →
    let delta := (word.total + 65536 - last) % 65536
    v.iv = (delta * 10000 + m.pulseRes) / k.k10 ∧ u.pulseRes = (delta * 10000 + m.pulseRes) % k.k10 ∧
    u.factor = curveFactor k.points u.flow ∧
    v.gv = (v.iv * v.factor + m.grossRes) / 100000 ∧ u.grossRes = (v.iv * v.factor + m.grossRes) % 100000 ∧
    v.nv = (v.gv * ctl k.alpha v.temp + m.netRes) / 100000 ∧
    u.netRes = (v.gv * ctl k.alpha v.temp + m.netRes) % 100000 ∧
    (m.totals.inRange →
      u.totals.inRange ∧
      u.totals.grossL * 1000 + u.totals.grossMl =
        (m.totals.grossL * 1000 + m.totals.grossMl + v.gv) % 1000000000000 ∧
      u.totals.netL * 1000 + u.totals.netMl = (m.totals.netL * 1000 + m.totals.netMl + v.nv) % 1000000000000))

/-- An increment set routed to an arm: into the stream account while a batch is open, otherwise IV into the
unauthorized-flow accumulator, which at or above the threshold makes the arm FAULTED with its sense code (R78, R102). -/
def State.Routes (s : State) (a : Fin 8) (p : StreamPos) (v : Increment) (y : Arm) : Prop :=
  let x := s.arm a
  let acc := x.account p
  let added : Account := {
    gross := acc.gross + v.gv, net := acc.net + v.nv, weight := acc.weight + v.temp * v.gv, lastFactor := v.factor }
  let flow := min 100000000 (x.unauthorized + v.iv)
  y = (if x.isOpen = true then (match p with | .wild => { x with wild := added } | .ctrl => { x with ctrl := added })
       else if s.config.unauthorizedL * 1000 ≤ flow then
         { x with unauthorized := flow, state := .faulted, sense := .unauthorizedFlow }
       else { x with unauthorized := flow })

/-! ## Period events -/

/-- No window is open, and an emission brings no change of assignment (R21, R30, R31). -/
def State.Still (s : State) : Prop :=
  s.trunk.answering = false ∧ s.trunk.slotCount = s.config.slotCount ∧ s.trunk.table = s.slotTable

/-- A period event that has led from a state to this one has sent a trunk frame and then the upstream frame, both as their
layouts read them from the owners' values at the end of the event; the upstream frame took its segment off the transaction
as it then was. The transaction differs from the one before the event only when the event ended a transfer whose response
was wanted: that response begins in this very upstream frame (R6, R15, R17; the order is log entry 11). -/
def State.EmittedFrom (t u : State) : Prop :=
  ∃ (transaction : Transaction) (transfers : Vector Transfer 8),
    t.rack.upstream = ({ t with rack := { t.rack with transaction := transaction } } : State).upstreamFrame ∧
    t.rack.transaction = transaction.segment.2.2.1 ∧
    t.rack.resetDue = (u.rack.resetDue || transaction.segment.2.2.2) ∧
    t.trunk.downstream = ({ t with transfers := transfers } : State).trunkFrame ∧
    (u.Still ∨ (∀ a : Fin 8, u.transfers[a].wanted = false) → transaction = u.rack.transaction) ∧
    (u.Still → transfers = u.transfers)

/-- The next period event, of source INTERNAL, finds no window open and brings no change of assignment, and it does not
take the link DOWN (R5, R9, R21, R30). -/
def State.QuietPeriod (s : State) : Prop :=
  s.powered = true ∧ s.timebase.internal = true ∧ (s.rack.up = false ∨ s.rack.silence + 1 < s.config.linkLossLimit) ∧
  s.Still ∧ (s.trunk.slotCount = 16 ∨ s.trunk.slotCount = 32 ∨ s.trunk.slotCount = 64)

/-! ## Answer windows -/

/-- The window of an assigned slot is the next to close (R21, R29). -/
def State.WindowOpen (s : State) (i : Fin 64) (a : Fin 8) (r : Role) : Prop :=
  s.powered = true ∧ s.trunk.answering = true ∧ s.trunk.nextWindow = i.val ∧ i.val < s.trunk.slotCount ∧
  s.trunk.table[i] = { arm := a, role := r } ∧ r ≠ .unused

/-- The 8-byte word with a good CRC-8 (R22). -/
def wordGood (w : List Byte) : Prop := w.length = 8 ∧ crc8 (w.take 7) = w.getD 7 0

/-- The window of the last slot of a meter in the frame closes with no word: the frame brings no sample of the meter, the
slot stays UP or LOST as it was, and other windows are still open (R21, R26, R42). -/
def State.MeterSilent (s : State) (i : Fin 64) (a : Fin 8) (p : StreamPos) : Prop :=
  s.WindowOpen i a (StreamPos.meterRole p) ∧ i.val + 1 < s.trunk.slotCount ∧
  (s.trunk.slots[i].up = false ∨ s.trunk.slots[i].invalids + 1 < 25) ∧ (s.meter a p).sample = none ∧
  ∀ j : Fin 64, i < j → ¬ Assigned s.trunk.slotCount s.trunk.table j a (StreamPos.meterRole p)

/-- The settlement of a meter without a sample brings no TEMP_LOST, and arm frame closed follows it, the other meter of the
arm being settled for the frame (R42, R50, R51, R57). -/
def State.ClosesFrame (s : State) (a : Fin 8) (p : StreamPos) : Prop :=
  (if (s.meter a p).age < 3000 then (s.meter a p).age + 1 else 3000) < s.config.tempHoldLimit ∧
  ∀ q, q ≠ p → (s.meter a q).settledFrame = s.trunk.frameCounter

/-- The window of the last slot of a meter in the frame closes with a valid word, its first sample of the frame, that raises
no cause: status OK or WARN, a seed or a total within the limit, an age below the hold limit. The arm with the sample's
increment set routed to it is `x`. The zero count after the frame's samples is `z`: it rises by one to at most 20 when both
meters have a sample of IV 0, is 0 when both have a sample and one is above 0, and stays when the other meter has none (R42,
R50, R51, R90). -/
def State.MeterWordLast (s : State) (i : Fin 64) (a : Fin 8) (p : StreamPos) (w : List Byte) (x : Arm) (z : Nat) : Prop :=
  let word : MeterWord := {
    total := numAt w 1 2, temp := signed16 (numAt w 3 2), status := if byteAt w 5 = 0 then .ok else .warn }
  s.WindowOpen i a (StreamPos.meterRole p) ∧ i.val + 1 < s.trunk.slotCount ∧
  (∀ j : Fin 64, i < j → ¬ Assigned s.trunk.slotCount s.trunk.table j a (StreamPos.meterRole p)) ∧
  wordGood w ∧ s.trunk.slots[i].toggle ≠ some ((w.getD 0 0).getLsbD 0) ∧ s.trunk.testFrame = false ∧
  (s.meter a p).sample = none ∧ byteAt w 5 ≤ 1 ∧ (s.Seeds a p ∨ ¬ s.AboveLimit a p word.total) ∧
  ∃ u v, s.Samples a p word u v ∧ s.Routes a p v x ∧ u.age < s.config.tempHoldLimit ∧
    ∀ q, q ≠ p →
      z = match (s.meter a q).sample with
        | none => (s.arm a).zeroCount
        | some other => if v.iv = 0 ∧ other = 0 then min 20 ((s.arm a).zeroCount + 1) else 0

/-- The close of a window with the bytes `w` brings arm frame closed of an arm: the other meter is settled for the frame, and
the window is the last of this meter, silent or with a valid word. The event finds the arm `x` and leaves the zero count
`z`, if the arm's state counts (R42, R57, R90). -/
def State.FrameCloses (s : State) (i : Fin 64) (a : Fin 8) (p : StreamPos) (w : List Byte) (x : Arm) (z : Nat) : Prop :=
  (w = [] ∧ s.MeterSilent i a p ∧ s.ClosesFrame a p ∧ x = s.arm a ∧ z = (s.arm a).zeroCount) ∨
  (s.MeterWordLast i a p w x z ∧ ∀ q, q ≠ p → (s.meter a q).settledFrame = s.trunk.frameCounter)

/-- A straight load has at most 2,000 mL of net controlled volume (R111). -/
def Arm.StraightWithin (x : Arm) : Prop := x.ratio.mode = .straight → x.ctrl.net ≤ 2000

end Sys2Proof.Machine
end

