-- ==== Sys2Proof/Certificates/Slice0/Obligations.lean ====
section
/-! DEFINITION. The statements for the provers. -/

open Sys2Proof Sys2Proof.Machine

/-! ## Steps, resets, supply -/

/-- A step takes the command that has waited longest and runs it on the state with the rest of the queue. -/
def Obligations.StepRunsFrontCommand : Prop :=
  ∀ (c : Instr) (rest : List Instr) (s : State), s.pending = c :: rest → step s = exec c { s with pending := rest }

/-- POWER_UP completes from every state and leaves the values after reset of 01 section 1.7, 02 section 2.8, 03 section
3.9, 05 section 5.10, 06 section 6.7, 07 section 7.11, 08 section 8.6, 09 section 9.8 and 10 section 10.3. The lines, the
waiting commands and the counter's cell are not touched. -/
def Obligations.PowerUpLeavesResetValues : Prop :=
  ∀ s : State, ∃ t, exec .powerUp s = .next t ∧
    (t.rack.up = false ∧ t.rack.silence = 0 ∧ t.rack.last = none ∧ t.rack.errors = 0 ∧ t.rack.assembly = none ∧
      t.rack.transaction = .none ∧ t.rack.discard = false ∧ t.rack.deviceSense = .none ∧ t.timebase.internal = true ∧
      ∀ a : Fin 8, t.rack.levels[a] = { runPermit := false, dropCause := .rack, hold := false }) ∧
    (t.trunk.frameCounter = 0 ∧ t.trunk.state = .down ∧ t.trunk.silence = 0 ∧ t.trunk.crcErrors = 0 ∧
      t.trunk.staleErrors = 0 ∧ t.trunk.test = { state := .none, remaining := 0, framesRun := 0, errors := 0 } ∧
      t.trunk.slotCount = t.config.slotCount ∧ t.trunk.table = t.slotTable ∧ t.timebase.periodMs = t.config.periodMs ∧
      ∀ i : Fin 64, t.trunk.slots[i] = { toggle := none, invalids := 25, up := false }) ∧
    (∀ a p, t.meter a p =
      { lastTotal := none, lastFrame := 0, lost := false, pulseRes := 0, grossRes := 0, netRes := 0,
        window := List.replicate 8 0, flow := 0, factor := 100000, temp := none, age := 0,
        totals := (t.meter a p).totals, settledFrame := 0, sample := none }) ∧
    (∀ a, (t.arm a).state = .idle ∧ (t.arm a).phase = .none ∧ (t.arm a).ctx = none ∧ (t.arm a).wildSet = 0 ∧
      ((t.arm a).wild.gross = 0 ∧ (t.arm a).wild.net = 0 ∧ (t.arm a).ctrl.gross = 0 ∧ (t.arm a).ctrl.net = 0) ∧
      (t.arm a).deliveredAtClose = 0 ∧ (t.arm a).batchNumber = 0 ∧ (t.arm a).startFrame = 0 ∧
      (t.arm a).holdCount = 0 ∧ (t.arm a).holdTimer = 0 ∧ (t.arm a).zeroCount = 0 ∧ (t.arm a).settleAge = 0 ∧
      (t.arm a).endReason = none ∧ (t.arm a).secondary = [] ∧ (t.arm a).ring = [] ∧ (t.arm a).unauthorized = 0 ∧
      (t.arm a).current = none ∧ (t.arm a).last = none ∧ (t.arm a).toggle = false ∧ (t.arm a).sense = .none ∧
      (t.arm a).ratio = { mode := .none, ctrlSet := 0, maxDev := 0, outCount := 0, limited := false } ∧
      (∀ k : Fin 4, (t.arm a).injectors[k] = { held := false, ref := false, busy := false }) ∧
      (t.arm a).entries = [] ∧ (t.arm a).additiveFault = false) ∧
    (∀ l : Fin 4, t.windows[l].isOpen = false ∧ t.windows[l].pending = []) ∧
    (t.store.latch = .clear ∧ t.store.status = .idle ∧ t.store.underWay = none ∧ t.store.queue = [] ∧
      t.store.prepared = false ∧ t.nv.metroCounter = s.nv.metroCounter) ∧
    (∀ a : Fin 8, t.transfers[a].phase = .idle) ∧ t.powered = true ∧ t.lines = s.lines ∧ t.pending = s.pending

/-- The three causes of reset have the same effect: RST on a part with its supply, and DEVICE_RESET once the frame with
the response of an accepted RESET_DEVICE has gone, leave what POWER_UP leaves. -/
def Obligations.ResetCausesAlike : Prop :=
  ∀ s : State, s.powered = true → ∃ t, exec .powerUp s = .next t ∧ exec .rst s = .next t ∧
    (s.rack.resetDue = true → exec .deviceReset s = .next t)

/-- POWER_DOWN takes the supply and tears the operation under way: its entry or copy is left failing its check, and
nothing else in the array changes. -/
def Obligations.PowerDownTearsOperation : Prop :=
  ∀ s : State, ∃ t, exec .powerDown s = .next t ∧ t.powered = false ∧ t.lines = s.lines ∧ t.pending = s.pending ∧
    t.nv.metroCounter = s.nv.metroCounter ∧
    (∀ k, t.nv.tables.get k =
      match s.store.underWay with
      | some (.commit c) => if c.key = k then .failing else s.nv.tables.get k
      | _ => s.nv.tables.get k) ∧
    (∀ (a : Fin 8) (c : Fin 2), t.nv.saves[a].get c =
      match s.store.underWay with
      | some (.save b d _) => if a = b ∧ c = d then .failing else s.nv.saves[a].get c
      | _ => s.nv.saves[a].get c)

/-- What a reset loads for an entry (R147): the content it carries with a good check word, every field in range; the blank
value, if it was never written; the fallback value with nonvolatile invalid set, if its commit is torn, if an earlier commit
left it failing, or if its bytes are no in-range content of this entry with its check word. The other flags are clear.
Commits of other entries and saves under way make no difference. And
what it restores of the totalizers (R144): those of the copy whose sequence number is one greater than the other's, else
of the copy with the larger number, copy 0 for equal ones; those of the one copy that passes; 0 for none, with the
store-save fault flag set when a copy of some arm has been written and neither passes. A save under way is torn. -/
def Obligations.EntriesLoad : Prop :=
  (∀ (s : State) (k : EntryKey), s.powered = true →
    let torn := ∃ c, s.store.underWay = some (.commit c) ∧ c.key = k
    let holds : List Byte → Content → Prop := fun bytes c =>
      c.InRange ∧ c.key = k ∧ ∃ body, c.CarriedBy body ∧ bytes = body ++ checkBytes body
    let blank : Content := match k with
      | .recipe i => .recipe i none
      | .curve i => .curve i []
      | .armEntry a => .armEntry a ArmEntry.cleared
      | .slotTable => .slotTable (Vector.replicate 64 { arm := 0, role := .unused })
      | .aliasTable a => .aliasTable a (Vector.replicate 8 none)
      | .config => .config DeviceConfig.defaults
      | .protection => .protection { range := 0, top := false, complement := false, mode := .modeOpen }
    let fallback : Content := match k with
      | .protection => .protection { range := 7, top := false, complement := false, mode := .switched }
      | _ => blank
    ∃ t, exec .rst s = .next t ∧
      (∀ bytes c, ¬ torn → s.nv.tables.get k = .written bytes → holds bytes c →
        t.tables.flags k = (false, false) ∧ t.tables.content k = c) ∧
      (¬ torn → s.nv.tables.get k = .unwritten → t.tables.flags k = (false, false) ∧ t.tables.content k = blank) ∧
      (torn ∨ s.nv.tables.get k = .failing ∨
          (∃ bytes, s.nv.tables.get k = .written bytes ∧ ∀ c, ¬ holds bytes c) →
        t.tables.flags k = (false, true) ∧ t.tables.content k = fallback)) ∧
  ∀ s : State, s.powered = true →
    ∃ t, exec .rst s = .next t ∧
      let passes : Fin 8 → Fin 2 → SaveImage → Prop := fun a d image =>
        s.nv.saves[a].get d = .holds image ∧ ∀ im, s.store.underWay ≠ some (.save a d im)
      let written : Fin 8 → Fin 2 → Prop := fun a d =>
        s.nv.saves[a].get d ≠ .unwritten ∨ ∃ im, s.store.underWay = some (.save a d im)
      (t.store.saveFault = true ↔ ∃ a d, written a d ∧ ∀ d' image, ¬ passes a d' image) ∧
      ∀ a : Fin 8,
        let restored : Fin 2 → SaveImage → Prop := fun d image =>
          t.store.latest[a] = some d ∧ (t.meter a .wild).totals = image.wild ∧ (t.meter a .ctrl).totals = image.ctrl
        (∀ image other, passes a 0 image → passes a 1 other →
          (other.seq = (image.seq + 1) % 4294967296 → restored 1 other) ∧
          (image.seq = (other.seq + 1) % 4294967296 → restored 0 image) ∧
          (other.seq ≠ (image.seq + 1) % 4294967296 → image.seq ≠ (other.seq + 1) % 4294967296 →
            (image.seq < other.seq → restored 1 other) ∧ (other.seq ≤ image.seq → restored 0 image))) ∧
        (∀ d image, passes a d image → (∀ d' other, d' ≠ d → ¬ passes a d' other) → restored d image) ∧
        ((∀ d image, ¬ passes a d image) → t.store.latest[a] = none ∧
          ∀ p, (t.meter a p).totals = { grossL := 0, grossMl := 0, netL := 0, netMl := 0 })

/-- A content whose commit has completed with success is the one in force after the next RST, unflagged. The totalizers of
a save that has completed with success are restored at the next RST, when the save's sequence number is one greater than
that of the other copy. -/
def Obligations.CompletedWritesSurviveReset : Prop :=
  (∀ (s : State) (c : Content), s.powered = true → s.store.QueueGood → s.store.underWay = some (.commit c) →
    c.InRange →
    ∃ t u, exec (.commitComplete true) s = .next t ∧ exec .rst t = .next u ∧ u.tables.content c.key = c ∧
      u.tables.flags c.key = (false, false)) ∧
  ∀ (s : State) (a : Fin 8) (c : Fin 2) (image : SaveImage), s.powered = true →
    s.store.underWay = some (.save a c image) → s.store.queue = [] →
    (∀ other, s.nv.saves[a].get (1 - c) = .holds other → image.seq = (other.seq + 1) % 4294967296) →
    ∃ t u, exec (.saveComplete true) s = .next t ∧ t.store.saveFault = false ∧ t.store.underWay = none ∧
      exec .rst t = .next u ∧ (u.meter a .wild).totals = image.wild ∧ (u.meter a .ctrl).totals = image.ctrl

/-- The invariants hold at reset. -/
def Obligations.InvariantsHoldAtReset : Prop :=
  State.reset.SetpointsRest ∧ State.reset.ContextsMatch ∧ State.reset.WindowsMatch ∧ State.reset.InRange ∧
  State.reset.HeldMatches ∧ State.reset.store.QueueGood

/-! ## The store engine and the Table Store -/

/-- SAVE_COMPLETE with success makes the written copy the latest and clears the store-save fault flag; with failure it
leaves the copy failing its check and sets the flag. The operation that waits first begins: a commit with its content, a
save with the copy, the number and the values of R143. Nothing else changes. -/
def Obligations.SaveCompletes : Prop :=
  ∀ (s : State) (a : Fin 8) (c : Fin 2) (image : SaveImage) (ok : Bool), s.powered = true →
    s.store.underWay = some (.save a c image) →
    ∃ t, exec (.saveComplete ok) s = .next t ∧
      t = { s with nv := t.nv, store := { s.store with
              saveFault := !ok, latest := if ok then s.store.latest.set a (some c) else s.store.latest,
              underWay := t.store.underWay, queue := s.store.queue.tail } } ∧
      t.nv.tables = s.nv.tables ∧ t.nv.metroCounter = s.nv.metroCounter ∧
      (∀ (b : Fin 8) (d : Fin 2), t.nv.saves[b].get d =
        if b = a ∧ d = c then (if ok then .holds image else .failing) else s.nv.saves[b].get d) ∧
      (t.store.underWay = none ↔ s.store.queue = []) ∧
      (∀ content rest, s.store.queue = .commit content :: rest → t.store.underWay = some (.commit content)) ∧
      (∀ b rest, s.store.queue = .save b :: rest → ∃ d im, t.store.underWay = some (.save b d im) ∧ t.SaveBegins b d im)

/-- COMMIT_COMPLETE with success writes the entry and clears its nonvolatile invalid flag, store status IDLE; with failure
it leaves the entry failing its check and sets the flag, store status FAILED. The operation that waits first begins. The
working copies are kept, and so are the latch, the prepared flag and the saves. -/
def Obligations.CommitCompletes : Prop :=
  ∀ (s : State) (content : Content) (ok : Bool), s.powered = true → s.store.underWay = some (.commit content) →
    ∃ t, exec (.commitComplete ok) s = .next t ∧
      t.store.status = (if ok then .idle else .failed) ∧ t.store.queue = s.store.queue.tail ∧
      t.store.latch = s.store.latch ∧ t.store.saveFault = s.store.saveFault ∧ t.store.latest = s.store.latest ∧
      t.store.prepared = s.store.prepared ∧ (t.store.underWay = none ↔ s.store.queue = []) ∧
      (∀ next rest, s.store.queue = .commit next :: rest → t.store.underWay = some (.commit next)) ∧
      (∀ a rest, s.store.queue = .save a :: rest →
        ∃ c image, t.store.underWay = some (.save a c image) ∧ t.SaveBegins a c image) ∧
      t.nv.saves = s.nv.saves ∧ t.nv.metroCounter = s.nv.metroCounter ∧
      (∀ k, t.nv.tables.get k = if content.key = k then (if ok then .written (sealContent content) else .failing)
        else s.nv.tables.get k) ∧
      (∀ k, t.tables.content k = s.tables.content k ∧
        t.tables.flags k = if content.key = k then ((s.tables.flags k).1, !ok) else s.tables.flags k) ∧
      t = { s with nv := t.nv, tables := t.tables, store := t.store }

/-- The store engine's queue stays in its form through every command: one commit exactly while store status is BUSY, at
most one waiting save for each arm, and so at most ten operations. -/
def Obligations.QueueStaysGood : Prop :=
  ∀ s t : State, s.store.QueueGood → step s = .next t → t.store.QueueGood ∧ t.store.operations ≤ 10

/-- The metrological change counter never decreases: no command lowers it, and it stays at 65,535. -/
def Obligations.MetroCounterNeverDecreases : Prop :=
  ∀ s t : State, s.nv.metroCounter ≤ 65535 → step s = .next t →
    s.nv.metroCounter ≤ t.nv.metroCounter ∧ t.nv.metroCounter ≤ 65535

/-- While a recipe slot lies in the protected range, no command but a reset or a loss of supply changes it. -/
def Obligations.ProtectedRecipeKept : Prop :=
  ∀ (c : Instr) (s t : State) (i : Fin 64), s.tables.protection.work.Protects i →
    c ≠ .powerUp → c ≠ .rst → c ≠ .deviceReset → c ≠ .powerDown → exec c s = .next t →
    t.tables.recipes[i].work = s.tables.recipes[i].work

/-- Section 9.2: the encoding of every table entry's content whose fields are in range carries target code, index and each
field at its own offset, and it is the only payload that does. A payload of the length that its target, presence, name
length and counts give is read as the content it carries, if its fields are in range, and as none otherwise. What a commit
writes is the encoding followed by its check word (R146). -/
def Obligations.ContentRoundTrips : Prop :=
  (∀ c : Content, c.InRange →
    (∀ p, c.CarriedBy p ↔ p = encodeContent c) ∧
    decodeContent (encodeContent c) = some c ∧ storeLengthRight (encodeContent c)) ∧
  (∀ p : List Byte, storeLengthRight p →
    ∀ c, decodeContent p = some c ↔ c.InRange ∧ c.CarriedBy p) ∧
  ∀ c : Content, sealContent c = encodeContent c ++ checkBytes (encodeContent c)

/-- STORE with the latch set, the store not busy, a payload that carries content with
every field in range and none of conditions 4 to 7 in its way is accepted: the
working copy takes the content, WORKING sets working differs, PERSIST clears it and makes the store BUSY with a commit
queued; a metrological STORE raises the counter; a changed K10 clears the pulse residue; the latch is cleared. -/
def Obligations.StoreAccepted : Prop :=
  ∀ (s : State) (c : Content) (p : List Byte), s.Ready → c.InRange → c.CarriedBy p → s.store.latch ≠ .clear →
    s.store.status ≠ .busy → ¬ s.StoreBadMode c → ¬ s.StoreProtected c → ¬ s.StoreCertLocked c → ¬ s.StoreBatchesOpen c →
    ∃ t, exec (.store deviceByte p) s = .next t ∧
      t = { s with
        tables := t.tables, meters := t.meters, rack := s.rack.sendsRecord .store false .none [] false,
        store := { s.store with
          latch := .clear, prepared := false, underWay := t.store.underWay, queue := t.store.queue,
          status := if s.store.latch = .persist then .busy else s.store.status },
        nv := { s.nv with metroCounter := t.nv.metroCounter } } ∧
      (s.Metrological c → t.nv.metroCounter = min 65535 (s.nv.metroCounter + 1)) ∧
      (¬ s.Metrological c → t.nv.metroCounter = s.nv.metroCounter) ∧
      (∀ k, t.tables.content k = if c.key = k then c else s.tables.content k) ∧
      (∀ k, t.tables.flags k =
        if c.key = k then (s.store.latch == .working, (s.tables.flags k).2) else s.tables.flags k) ∧
      (s.store.latch = .persist → s.store.underWay = none →
        t.store.underWay = some (.commit c) ∧ t.store.queue = s.store.queue) ∧
      (s.store.latch = .persist → s.store.underWay ≠ none →
        t.store.underWay = s.store.underWay ∧ t.store.queue = s.store.queue ++ [.commit c]) ∧
      (s.store.latch = .working → t.store.underWay = s.store.underWay ∧ t.store.queue = s.store.queue) ∧
      (∀ a p, t.meter a p =
        match c with
        | .armEntry b e => if a = b ∧ e.k10 p ≠ (s.armEntry a).k10 p then { s.meter a p with pulseRes := 0 }
                           else s.meter a p
        | _ => s.meter a p)

/-- STORE refused: the first of the seven conditions of R150 that holds gives the sense code, no entry and no flag changes,
the latch is cleared. That a STORE sent while a commit waits, when the latch is always clear, is refused NOT_ENABLED by the
order of R150 is the model's choice against R152 (log entry 28). Condition 3: no content with every field in its range (R62,
R63, R65, R66, R68, R71, R154, R161) is carried by the payload in the layout of section 9.2. Conditions 4 to 7 are those of sections 9.4 and 9.5: the latch mode, the protected range and the
working mode, CERT, and the open batches that the content concerns. -/
def Obligations.StoreRefused : Prop :=
  ∀ (s : State) (p : List Byte), s.Ready → storeLengthRight p → p.length ≤ 240 →
    (s.store.latch = .clear → exec (.store deviceByte p) s = .next (s.refused .store deviceByte .notEnabled)) ∧
    (s.store.latch ≠ .clear → s.store.status = .busy →
      exec (.store deviceByte p) s = .next (s.refused .store deviceByte .storeBusy)) ∧
    (s.store.latch ≠ .clear → s.store.status ≠ .busy →
      ((∀ c : Content, c.InRange → ¬ c.CarriedBy p) → exec (.store deviceByte p) s = .next (s.refused .store deviceByte .badField)) ∧
      (∀ c : Content, c.InRange → c.CarriedBy p →
        (s.StoreBadMode c → exec (.store deviceByte p) s = .next (s.refused .store deviceByte .badMode)) ∧
        (¬ s.StoreBadMode c → s.StoreProtected c →
          exec (.store deviceByte p) s = .next (s.refused .store deviceByte .isProtected)) ∧
        (¬ s.StoreBadMode c → ¬ s.StoreProtected c → s.StoreCertLocked c →
          exec (.store deviceByte p) s = .next (s.refused .store deviceByte .certLocked)) ∧
        (¬ s.StoreBadMode c → ¬ s.StoreProtected c → ¬ s.StoreCertLocked c → s.StoreBatchesOpen c →
          exec (.store deviceByte p) s = .next (s.refused .store deviceByte .batchesOpen))))

/-- STORE_ENABLE sets the latch with its mode unless the store is busy or the mode byte is neither 0 nor 1; STORE_DISABLE
clears it in every state. That another mode byte is answered BAD_FIELD also while the store is busy is the model's choice
(log entry 25): R149 gives the two refusals without an order. -/
def Obligations.LatchRequests : Prop :=
  ∀ s : State, s.Ready →
    (s.store.status ≠ .busy → ∀ (m : Byte) (l : Latch), (m = 0 ∧ l = .persist) ∨ (m = 1 ∧ l = .working) →
      exec (.storeEnable deviceByte [m]) s =
        .next ({ s with store := { s.store with latch := l } }.answered .storeEnable [])) ∧
    (s.store.status = .busy → ∀ m : Byte, m = 0 ∨ m = 1 →
      exec (.storeEnable deviceByte [m]) s = .next (s.refused .storeEnable deviceByte .storeBusy)) ∧
    (∀ m : Byte, m ≠ 0 → m ≠ 1 →
      exec (.storeEnable deviceByte [m]) s = .next (s.refused .storeEnable deviceByte .badField)) ∧
    exec (.storeDisable deviceByte []) s =
      .next ({ s with store := { s.store with latch := .clear } }.answered .storeDisable [])

/-- READ_TABLE returns the flags byte and the bytes that carry the working copy in the layout of section 9.2, and changes no state but the channel's; a
target or index out of range is refused BAD_FIELD. READ_STORE_STATUS returns its seven bytes. The premises on the working
copies and the counters are invariants, stated in RangesKept and QueueStaysGood. -/
def Obligations.StoreIsRead : Prop :=
  ∀ s : State, s.Ready →
    (∀ k : EntryKey, (s.tables.content k).InRange →
      ∃ bytes : List Byte, (s.tables.content k).CarriedBy bytes ∧
        exec (.readTable deviceByte (bytes.take 2)) s =
          .next (s.answered .readTable
            (((if (s.tables.flags k).1 then 1 else 0) + (if (s.tables.flags k).2 then 2 else 0) : Byte) :: bytes))) ∧
    (∀ target index : Byte, (6 < target.toNat ∨ (target = 0 ∧ 63 < index.toNat) ∨ (target = 1 ∧ 15 < index.toNat) ∨
        ((target = 2 ∨ target = 4) ∧ 7 < index.toNat) ∨ ((target = 3 ∨ target = 5 ∨ target = 6) ∧ 0 < index.toNat)) →
      exec (.readTable deviceByte [target, index]) s = .next (s.refused .readTable deviceByte .badField)) ∧
    (s.store.operations ≤ 10 → s.nv.metroCounter ≤ 65535 →
      exec (.readStoreStatus deviceByte []) s =
        .next (s.answered .readStoreStatus
          [BitVec.ofNat 8 (match s.store.status with | .idle => 0 | .busy => 1 | .failed => 2),
           if s.store.saveFault then 1 else 0,
           BitVec.ofNat 8 (match s.store.latch with | .clear => 0 | .persist => 1 | .working => 2),
           BitVec.ofNat 8 s.store.operations, BitVec.ofNat 8 (s.nv.metroCounter / 256),
           BitVec.ofNat 8 s.nv.metroCounter,
           BitVec.ofNat 8 (match s.tables.protection.work.mode with
             | .modeOpen => 0 | .switched => 1 | .lockedToRestart => 2 | .permanent => 3)]))

/-- Counters, residues, totalizers, table entries and records stay in the ranges the spec gives them through every
command. -/
def Obligations.RangesKept : Prop :=
  ∀ s t : State, s.InRange → step s = .next t → t.InRange

/-! ## The management channel -/

/-- RESET_PREPARE is accepted and sets the prepared flag. RESET_DEVICE is tested in its order; accepted, its response is
marked to end in a reset, which is due once the frame that carries it has gone. -/
def Obligations.ResetByRequest : Prop :=
  ∀ s : State, s.Ready →
    exec (.resetPrepare deviceByte []) s = .next (s.answered .resetPrepare []) ∧
    (s.store.prepared = false →
      exec (.resetDevice deviceByte []) s = .next (s.refused .resetDevice deviceByte .resetNotPrepared)) ∧
    (s.store.prepared = true → (∃ a, (s.arm a).state ≠ .idle ∧ (s.arm a).state ≠ .faulted) →
      exec (.resetDevice deviceByte []) s = .next (s.refused .resetDevice deviceByte .batchesOpen)) ∧
    (s.store.prepared = true → (∀ a, (s.arm a).state = .idle ∨ (s.arm a).state = .faulted) →
      s.store.hasCommit = true →
      exec (.resetDevice deviceByte []) s = .next (s.refused .resetDevice deviceByte .storeBusy)) ∧
    (s.store.prepared = true → (∀ a, (s.arm a).state = .idle ∨ (s.arm a).state = .faulted) →
      s.store.hasCommit = false →
      exec (.resetDevice deviceByte []) s =
        .next { s with rack := s.rack.sendsRecord .resetDevice false .none [] true,
                       store := s.store.decided .resetDevice false } ∧
      ({ s with rack := s.rack.sendsRecord .resetDevice false .none [] true,
                store := s.store.decided .resetDevice false }.sendUpstream).rack.resetDue = true)

/-- While a transaction is HELD or SENDING a request is discarded and the discard flag set. Otherwise a request whose
payload length or arm field its row does not allow is answered BAD_REQUEST and changes nothing else. A request command
stands apart from a frame: that it gives up an open assembly and leaves the discard flag for the response as it was is
the model's choice (log entry 14). -/
def Obligations.RequestsTurnedAway : Prop :=
  ∀ (s : State) (code : RequestCode) (arm : Byte) (p : List Byte), s.powered = true →
    (s.rack.transaction ≠ .none →
      exec (Instr.ofRequest code arm p) s = .next { s with rack := { s.rack with discard := true } }) ∧
    (s.rack.transaction = .none →
      (240 < p.length ∨
       (match code with
        | .authorize => p.length ≠ 11
        | .start | .readRecord | .storeEnable => p.length ≠ 1
        | .readTable | .trunkTest => p.length ≠ 2
        | .service => p.length < 3 ∨ 34 < p.length
        | .store => ¬ storeLengthRight p
        | _ => p ≠ []) ∨
       (match code with
        | .authorize | .start | .cancel | .clearFault | .readRecord | .service => 7 < arm.toNat
        | .getSense => 7 < arm.toNat ∧ arm ≠ 255
        | _ => arm ≠ 255)) →
      exec (Instr.ofRequest code arm p) s = .next (s.refused code arm .badRequest))

/-- A request cut into a FIRST, any number of MIDDLE and a LAST segment in consecutive frame numbers is decided as the
request its bytes make up, 243 of them stored. Segment by segment (R11, R12, R14): on an empty assembly NONE does nothing,
FIRST opens it, ONLY is the whole request, MIDDLE and LAST are discarded and set the discard flag; on an open one NONE
advances the expected number, MIDDLE and LAST append, FIRST and ONLY discard the partial request, set the flag and begin
anew; a frame number other than the expected one breaks the assembly first; during a transaction NONE does nothing and any
other segment sets the flag alone. A complete request whose record is whole is decided as its request command is; one of
fewer than 3 bytes, of an unknown code or of a wrong count is answered BAD_REQUEST (R13), the code echoed, or 0 with no
bytes, and recorded for the arm named or the device: for a request too short to name an arm the device is the model's
choice (log entry 13). A response goes out whole, 32 bytes to a segment, in consecutive upstream frames: ONLY for 32 bytes
or less, otherwise FIRST, MIDDLE and LAST; then the segments are NONE. While the transaction is HELD they are WAIT, length
0 (R15). -/
def Obligations.SegmentsBothWays : Prop :=
  (∀ (s : State) (f l : DownFrame) (ms : List DownFrame), s.rack.transaction = .none → s.rack.assembly = none →
    f.kind = .first → l.kind = .last → (∀ m ∈ ms, m.kind = .middle) →
    List.IsChain (fun x y => y.number = x.number + 1) (f :: ms ++ [l]) →
    let bytes := f.segment ++ ms.flatMap (·.segment) ++ l.segment
    (f :: ms ++ [l]).foldl State.takeSegment s = s.completeRequest (bytes.take 243) bytes.length) ∧
  (∀ (s : State) (f : DownFrame),
    let opened : Assembly := { buffer := f.segment.take 243, count := f.segment.length, expected := f.number + 1 }
    let withLink : Option Assembly → Bool → State := fun assembly discard =>
      { s with rack := { s.rack with assembly := assembly, discard := discard } }
    (s.rack.transaction ≠ .none →
      s.takeSegment f = if f.kind = .none then s else { s with rack := { s.rack with discard := true } }) ∧
    (s.rack.transaction = .none → s.rack.assembly = none →
      s.takeSegment f =
        match f.kind with
        | .none => s
        | .first => withLink (some opened) s.rack.discard
        | .middle | .last => withLink none true
        | .only => s.completeRequest f.segment f.segment.length) ∧
    ∀ b : Assembly, s.rack.transaction = .none → s.rack.assembly = some b → b.buffer.length ≤ 243 →
      let extended : Assembly := {
        buffer := (b.buffer ++ f.segment).take 243, count := b.count + f.segment.length, expected := f.number + 1 }
      (f.number ≠ b.expected → s.takeSegment f = (withLink none true).takeSegment f) ∧
      (f.number = b.expected →
        s.takeSegment f =
          match f.kind with
          | .none => withLink (some { b with expected := f.number + 1 }) s.rack.discard
          | .first => withLink (some opened) true
          | .middle => withLink (some extended) s.rack.discard
          | .last => (withLink none s.rack.discard).completeRequest extended.buffer extended.count
          | .only => (withLink none true).completeRequest f.segment f.segment.length)) ∧
  (∀ (s : State) (code : RequestCode) (arm : Byte) (p : List Byte), s.Ready → s.rack.assembly = none →
    p.length ≤ 240 →
    exec (Instr.ofRequest code arm p) s =
      .next (s.completeRequest ([BitVec.ofNat 8 code.code, arm, BitVec.ofNat 8 p.length] ++ p) (3 + p.length))) ∧
  (∀ (s : State) (bytes : List Byte) (count : Nat),
    count < 3 ∨ (∀ code : RequestCode, code.code ≠ byteAt bytes 0) ∨ 240 < byteAt bytes 2 ∨
      count ≠ 3 + byteAt bytes 2 →
    let sent : State → State := fun t => { t with
      rack := { t.rack with
        discard := false,
        transaction := .sending [bytes.getD 0 0, 1, 1, if s.rack.discard then 1 else 0, 0] 0 false },
      store := { t.store with
        latch := if byteAt bytes 0 = 0x0B then .clear else t.store.latch, prepared := false } }
    (∀ a : Fin 8, 2 ≤ bytes.length → byteAt bytes 1 = a.val →
      s.completeRequest bytes count = sent (s.modArm a (fun x => { x with sense := .badRequest }))) ∧
    (bytes.length < 2 ∨ 7 < byteAt bytes 1 →
      s.completeRequest bytes count =
        sent { s with rack := { s.rack with deviceSense := .badRequest } })) ∧
  (∀ (n : Nat) (a : Fin 8), Transaction.segments n (.held a) = List.replicate n (5, [])) ∧
  (∀ (bytes : List Byte) (reset : Bool), bytes ≠ [] →
    let n := (bytes.length + 31) / 32
    let segs := Transaction.segments n (.sending bytes 0 reset)
    segs.flatMap (·.2) = bytes ∧ (∀ x ∈ segs, x.2.length ≤ 32) ∧
    segs.map (·.1) = (if n = 1 then [4] else 1 :: List.replicate (n - 2) 2 ++ [3]) ∧
    (Transaction.segments (n + 1) (.sending bytes 0 reset)).getLast? = some (0, []))

/-- The transaction is HELD exactly while a transfer's response is wanted, and no assembly is open during a transaction:
every command keeps this. -/
def Obligations.HeldResponseKept : Prop := ∀ s t : State, s.HeldMatches → step s = .next t → t.HeldMatches

/-! ## The rack link -/

/-- A frame that fails a check of R1 is discarded whole: the error counter rises, an open assembly is broken. One that
passes becomes the last accepted frame: the link is UP with silence 0, the source is RACK. The windows still open close
with no word, one by one, as if ANSWER_WINDOW_CLOSE had brought each before the frame (R21); then every arm's levels are its
command bits, its segment is taken as SegmentsBothWays states, and the frames of the period event go out: one trunk frame,
the one of TrunkFrameLayout, filled before the transfers move on, and after it an upstream frame, the one of
UpstreamFrameLayout, which echoes its number and takes its segment off the transaction; so a response that the event itself
releases begins in that frame (R15). That the windows close before the levels and the segment is read from R138 for the
segment, and the rest of the order is the model's choice (log entry 11). With no
request in the frame, no window open and no change of assignment, the arms change by their levels alone: a dropped
RUN_PERMIT ends a batch with RACK_END and returns a pending arm, HOLD set takes a RUNNING arm to HOLDING, where it holds no
phase (the model's choice, log entry 24), and HOLD cleared resumes a HELD arm whose other conditions hold. -/
def Obligations.FramesDecided : Prop :=
  ∀ (s : State) (us : Nat) (f : List Byte), s.powered = true →
    (¬ s.passesChecks (s.nowUs + us) f →
      exec (.rackFrameReceived us f) s =
        .next { s with
          nowUs := s.nowUs + us,
          rack := { s.rack with
            errors := if s.rack.errors < 255 then s.rack.errors + 1 else 255, assembly := none,
            discard := s.rack.discard || s.rack.assembly.isSome } }) ∧
    (s.passesChecks (s.nowUs + us) f →
      ∃ t, exec (.rackFrameReceived us f) s = .next t ∧
        t.rack.last = some { number := f.getD 2 0, atUs := s.nowUs + us } ∧ t.rack.up = true ∧ t.rack.silence = 0 ∧
        t.timebase.internal = false ∧ t.timebase.lastEventUs = s.nowUs + us ∧ t.nowUs = s.nowUs + us ∧
        (∀ a : Fin 8,
          t.rack.levels[a].runPermit = (f.getD (3 + a.val) 0).getLsbD 0 ∧
          t.rack.levels[a].hold = (f.getD (3 + a.val) 0).getLsbD 1 ∧
          t.rack.levels[a].dropCause =
            if s.rack.levels[a].runPermit = true ∧ (f.getD (3 + a.val) 0).getLsbD 0 = false then .rack
            else s.rack.levels[a].dropCause) ∧
        t.rack.upstream.take 3 = [0xD2, 0xB4, f.getD 2 0] ∧
        (∀ g : DownFrame, g.number = f.getD 2 0 → g.commands = (f.drop 3).take 8 →
          SegmentKind.ofCode (byteAt f 11) = some g.kind → g.segment = (f.drop 13).take (byteAt f 12) →
          t.EmittedFrom
            (((({ s with nowUs := s.nowUs + us }.recordFrame g).cutWindows 65).takeLevels g).takeSegment g)) ∧
        (s.trunk.answering = true → ∃ v, exec (.answerWindowClose []) s = .next v ∧
          exec (.rackFrameReceived us f) s = exec (.rackFrameReceived us f) v) ∧
        t.trunk.frameCounter = (s.trunk.frameCounter + 1) % 4294967296 ∧ t.trunk.answering = true ∧
        t.trunk.nextWindow = 0 ∧ t.trunk.slotCount = t.config.slotCount ∧ t.trunk.table = t.slotTable ∧
        t.timebase.periodMs = t.config.periodMs ∧ t.lines = s.lines ∧ t.powered = true ∧ t.pending = s.pending ∧
        (byteAt f 11 = 0 → s.Still → ∀ a : Fin 8,
          let x := s.arm a
          let run := (f.getD (3 + a.val) 0).getLsbD 0
          let hold := (f.getD (3 + a.val) 0).getLsbD 1
          let dropped := s.rack.levels[a].runPermit = true ∧ run = false
          (dropped → x.state ≠ .startPending → x.Takes (t.arm a) .rackEnd) ∧
          (dropped → x.state = .startPending →
            t.arm a = { x with state := .authorized, sense := .runPermitAbsent } ∧
            ∀ c, x.ctx = some c → a ∉ t.windows[c.settings.lane].pending) ∧
          (¬ dropped → s.rack.levels[a].hold = false → hold = true →
            (x.state = .running → t.arm a = { x with
              state := .holding, phase := .none, wildSet := 0, ratio := { x.ratio with ctrlSet := 0, limited := false },
              holdCount := if x.holdCount < 255 then x.holdCount + 1 else 255, holdTimer := 0, zeroCount := 0 }) ∧
            (x.state ≠ .running → t.arm a = x)) ∧
          (¬ dropped → s.rack.levels[a].hold = true → hold = false →
            (∀ c, x.state = .held → run = true → s.lines.permit[a] = true → s.lines.estop = false → x.ctx = some c →
              t.arm a = { x with
                state := .running, phase := if x.remaining ≤ c.settings.topOff * 1000 then .topOff else .startLow,
                wildSet := 0, ratio := { x.ratio with ctrlSet := 0 } }) ∧
            (x.state ≠ .held ∨ run = false ∨ s.lines.permit[a] = false ∨ s.lines.estop = true → t.arm a = x)) ∧
          (¬ dropped → s.rack.levels[a].hold = hold → t.arm a = x)))

/-- A period event of source INTERNAL, one nominal period after the last event, or 1.5 periods after the last accepted
frame when the source was RACK: one trunk frame emitted, the one of TrunkFrameLayout, filled before the transfers move on,
and after it an upstream frame with echo 255, the one of UpstreamFrameLayout, its segment taken off the transaction; a
response that the event itself releases begins in that frame (R15). While the link is UP and below its limit the silence
count rises, and a DOWN link stays as it is. The moment moves on to that of the event and never back when the command comes
later: the model's choice (log entry 4). The rest of the order within the event is the model's choice too (log entry 11). -/
def Obligations.InternalPeriodEvents : Prop :=
  (∀ s : State, s.powered = true → s.rack.up = false ∨ s.rack.silence + 1 < s.config.linkLossLimit →
    let emitted : State → Prop := fun t =>
      let covered := s.trunk.test.state = .running ∧ 0 < s.trunk.test.remaining
      t.EmittedFrom s ∧
      (s.trunk.answering = false → (covered → t.trunk.testFrame = true ∧ t.trunk.test = { s.trunk.test with
          remaining := s.trunk.test.remaining - 1, framesRun := s.trunk.test.framesRun + 1 }) ∧
        (¬ covered → t.trunk.testFrame = false ∧ t.trunk.test = s.trunk.test))
    (s.timebase.internal = true →
      ∃ t, exec .timebaseInternalPeriod s = .next t ∧ t.timebase.internal = true ∧
        t.nowUs = max s.nowUs (s.timebase.lastEventUs + 1000 * s.timebase.periodMs) ∧
        t.timebase.lastEventUs = t.nowUs ∧ t.timebase.periodMs = s.config.periodMs ∧ t.rack.up = s.rack.up ∧
        t.rack.silence = (if s.rack.up then s.rack.silence + 1 else s.rack.silence) ∧
        t.rack.levels = s.rack.levels ∧ t.rack.last = s.rack.last ∧ t.rack.upstream.take 3 = [0xD2, 0xB4, 0xFF] ∧
        t.trunk.frameCounter = (s.trunk.frameCounter + 1) % 4294967296 ∧
        t.lines = s.lines ∧ t.tables = s.tables ∧ t.nv = s.nv ∧ t.powered = true ∧ t.pending = s.pending ∧ emitted t) ∧
    (s.timebase.internal = false → ∀ l, s.rack.last = some l →
      ∃ t, exec .timebaseRackTimeout s = .next t ∧ t.timebase.internal = true ∧
        t.nowUs = max s.nowUs (l.atUs + 1500 * s.timebase.periodMs) ∧ t.timebase.lastEventUs = t.nowUs ∧
        t.timebase.periodMs = s.config.periodMs ∧ t.rack.up = s.rack.up ∧
        t.rack.silence = (if s.rack.up then s.rack.silence + 1 else s.rack.silence) ∧
        t.rack.levels = s.rack.levels ∧ t.rack.last = s.rack.last ∧ t.rack.upstream.take 3 = [0xD2, 0xB4, 0xFF] ∧
        t.trunk.frameCounter = (s.trunk.frameCounter + 1) % 4294967296 ∧
        t.lines = s.lines ∧ t.tables = s.tables ∧ t.nv = s.nv ∧ t.powered = true ∧ t.pending = s.pending ∧ emitted t)) ∧
  ∀ s : State, s.powered = true → s.rack.up = true → s.config.linkLossLimit ≤ s.rack.silence + 1 →
    ∃ u, exec .linkLoss s = .next u ∧ u.rack.up = false ∧
      (s.timebase.internal = true → exec .timebaseInternalPeriod s = exec .timebaseInternalPeriod u) ∧
      (s.timebase.internal = false → exec .timebaseRackTimeout s = exec .timebaseRackTimeout u)

/-- LINK_LOSS, when the silence count's next rise reaches the limit of the device config (the command makes that rise and
its test itself: DEDUCED, log entry 2): the link goes DOWN, RUN_PERMIT
of every arm is dropped with cause LINK where it was set and HOLD is clear, the management channel is emptied, the error
counter is 0, held responses are no longer wanted, the prepared flag is clear, and a flowing batch whose RUN_PERMIT was
set ends with LINK_LOST, which joins the causes of a closing one. -/
def Obligations.LinkLossEffects : Prop :=
  ∀ s : State, s.powered = true → s.rack.up = true → s.config.linkLossLimit ≤ s.rack.silence + 1 →
    ∃ t, exec .linkLoss s = .next t ∧
      t = { s with
        rack := { s.rack with
          up := false, silence := 0, levels := t.rack.levels, assembly := none, transaction := .none,
          discard := false, errors := 0 },
        arms := t.arms, windows := t.windows, transfers := t.transfers,
        store := { s.store with prepared := false } } ∧
      (∀ a : Fin 8, t.rack.levels[a] =
        { runPermit := false, hold := false,
          dropCause := if s.rack.levels[a].runPermit then .link else s.rack.levels[a].dropCause }) ∧
      (∀ a : Fin 8, t.transfers[a] = { s.transfers[a] with wanted := false }) ∧
      (∀ a, s.rack.levels[a].runPermit = true → (s.arm a).state.flowing → (s.arm a).ClosedBy (t.arm a) .linkLost) ∧
      (∀ a, s.rack.levels[a].runPermit = true → (s.arm a).state = .closing →
        t.arm a = if (s.arm a).endReason = some .linkLost ∨ EndCause.linkLost ∈ (s.arm a).secondary then s.arm a
          else { s.arm a with secondary := (s.arm a).secondary ++ [.linkLost] }) ∧
      (∀ a, s.rack.levels[a].runPermit = true → (s.arm a).state = .startPending →
        t.arm a = { s.arm a with state := .authorized, sense := .runPermitAbsent }) ∧
      (∀ a, (s.arm a).state = .idle ∨ (s.arm a).state = .authorized ∨ (s.arm a).state = .faulted →
        t.arm a = s.arm a)

/-- The upstream frame: start mark, echo, status block, eight 20-byte images with arm a at 7 + 20 a, segment kind and
length, segment data, and the check word of R2 over everything from the echo to the last data byte. The status block shows
what R7 lists. Each image shows the arm's state, phase, flags, sense code, batch number, volumes, flows and current
fraction as R8 states them. -/
def Obligations.UpstreamFrameLayout : Prop :=
  ∀ s : State,
    let data := s.rack.transaction.segment.2.1
    let f := s.upstreamFrame
    f.length = 171 + data.length ∧ f.take 3 = [0xD2, 0xB4, s.echo] ∧
    (∀ a : Fin 8,
      let image := (f.drop (7 + 20 * a.val)).take 20
      image = armImage (s.arm a) (s.meter a .wild) (s.meter a .ctrl) ∧
      byteAt image 0 = (s.arm a).state.code ∧ byteAt image 3 = (s.arm a).sense.code ∧
      (image.getD 2 0).getLsbD 4 = (s.arm a).toggle ∧
      ((s.arm a).batchNumber < 65536 → numAt image 4 2 = (s.arm a).batchNumber) ∧
      byteAt image 1 = (if (s.arm a).state = .running then
        (match (s.arm a).phase with | .none => 0 | .startLow => 1 | .high => 2 | .topOff => 3) else 0) ∧
      byteAt image 2 = (if (s.arm a).ratio.limited then 1 else 0) +
        (if 0 < (s.meter a .wild).age ∨ 0 < (s.meter a .ctrl).age then 2 else 0) +
        (if (s.arm a).additiveFault then 4 else 0) + (if (s.arm a).sense = .none then 0 else 8) +
        (if (s.arm a).toggle then 16 else 0) ∧
      Carries image 14 2 (s.meter a .wild).flow ∧ Carries image 16 2 (s.meter a .ctrl).flow ∧
      ((s.arm a).isOpen = false → numAt image 6 4 = 0 ∧ numAt image 10 4 = 0 ∧ numAt image 18 2 = 0xFFFF) ∧
      (∀ c, (s.arm a).isOpen = true → (s.arm a).ctx = some c →
        let w := (s.arm a).wild
        let k := (s.arm a).ctrl
        let delivered := if c.netBasis then w.net + k.net else w.gross + k.gross
        let ethanol := if c.recipe.ethanolControlled then k.net else w.net
        ((s.arm a).state = .authorized ∨ (s.arm a).state = .startPending →
          numAt image 6 4 = 0 ∧ Carries image 10 4 c.presetMl) ∧
        ((s.arm a).state ≠ .authorized → (s.arm a).state ≠ .startPending →
          Carries image 6 4 delivered ∧ Carries image 10 4 (c.presetMl - delivered)) ∧
        numAt image 18 2 = if w.net + k.net = 0 then 0xFFFF else ethanol * 10000 / (w.net + k.net))) ∧
    byteAt f 3 = (match s.trunk.state with | .down => 0 | .up => 1 | .test => 2) +
      (if s.timebase.internal then 4 else 0) + (if s.lines.certUnlocked then 8 else 0) ∧
    byteAt f 4 = (match s.store.status with | .idle => 0 | .busy => 1 | .failed => 2) +
      (if s.store.saveFault then 4 else 0) ∧
    Carries f 5 1 s.rack.errors ∧ byteAt f 6 = s.rack.deviceSense.code ∧
    f.getD 167 0 = BitVec.ofNat 8 s.rack.transaction.segment.1 ∧ (f.drop 169).take data.length = data ∧
    data.length ≤ 32 ∧ f.getD 168 0 = BitVec.ofNat 8 data.length ∧
    f.drop (169 + data.length) = checkBytes ((f.drop 2).take (167 + data.length))

/-- The check of R2 is 0 over a message followed by its own check word, and it tells two messages apart that differ in
exactly one byte. -/
def Obligations.CheckWordDetects : Prop :=
  (∀ m : List Byte, crc16 (m ++ checkBytes m) = 0) ∧
  (∀ (p q : List Byte) (x y : Byte), x ≠ y → crc16 (p ++ x :: q) ≠ crc16 (p ++ y :: q)) ∧ crc16 [0] = 0xFD02

/-! ## The field trunk -/

/-- The downstream frame has its start mark, 5 + 6 S + 2 bytes for slot count S, the low 16 bits of the frame counter, the
test flag and the slot count code, its check word over everything from the frame number on, and in the word of slot s the
slot index. In a test frame the word of an assigned slot carries the test pattern. In any other a valve's word carries the
set-point of its owner, an injector's the outstanding shot or the toggle held, a meter's nothing; an unassigned slot's word
never carries anything but service fields. -/
def Obligations.TrunkFrameLayout : Prop :=
  ∀ s : State, s.trunk.slotCount = 16 ∨ s.trunk.slotCount = 32 ∨ s.trunk.slotCount = 64 →
    let f := s.trunkFrame
    f.length = 7 + 6 * s.trunk.slotCount ∧ f.take 2 = [0xA5, 0x3C] ∧ numAt f 2 2 = s.trunk.frameCounter % 65536 ∧
    byteAt f 4 = (if s.trunk.testFrame then 1 else 0) +
      2 * (if s.trunk.slotCount = 16 then 0 else if s.trunk.slotCount = 32 then 1 else 2) ∧
    f.drop (5 + 6 * s.trunk.slotCount) = checkBytes ((f.drop 2).take (3 + 6 * s.trunk.slotCount)) ∧
    ∀ i : Fin 64, i.val < s.trunk.slotCount →
      let w := (f.drop (5 + 6 * i.val)).take 6
      let carries : Nat → Nat → Bool → Prop := fun kind value toggle =>
        byteAt w 0 = kind ∧ Carries w 2 2 value ∧ (w.getD 1 0).getLsbD 0 = toggle
      w.getD 5 0 = BitVec.ofNat 8 i.val ∧
      (s.trunk.table[i].role = .unused → carries 0 0 false) ∧
      (s.trunk.testFrame = true → s.trunk.table[i].role ≠ .unused →
        carries 3 ((s.trunk.frameCounter % 65536 + 4111 * i.val) % 65536) false) ∧
      (s.trunk.testFrame = false → ∀ a : Fin 8,
        (s.trunk.table[i] = { arm := a, role := .wildMeter } ∨ s.trunk.table[i] = { arm := a, role := .ctrlMeter } →
          carries 0 0 false) ∧
        (s.trunk.table[i] = { arm := a, role := .wildValve } → carries 1 (s.arm a).wildSet false) ∧
        (s.trunk.table[i] = { arm := a, role := .ctrlValve } → carries 1 (s.arm a).ratio.ctrlSet false) ∧
        (∀ k, s.trunk.table[i] = { arm := a, role := .inj k } →
          (∀ sh, (s.arm a).shotFor k = some sh → carries 2 sh.volume sh.toggle) ∧
          ((s.arm a).shotFor k = none → carries 0 0 (s.arm a).injectors[k].held)))

/-- A word that arrives after its window has closed, and a word in the window of an unassigned slot that is not the last,
change nothing but the window that closes next. -/
def Obligations.StrayWordsIgnored : Prop :=
  ∀ (s : State) (w : List Byte), exec (.lateWordDrop w) s = .next s ∧
    (∀ i : Fin 64, s.powered = true → s.trunk.answering = true → s.trunk.nextWindow = i.val →
      i.val + 1 < s.trunk.slotCount → s.trunk.table[i].role = .unused →
      exec (.answerWindowClose w) s =
        .next { s with trunk := { s.trunk with nextWindow := i.val + 1 } })

/-- A word of an assigned slot with a good CRC-8 and a new toggle is valid: the slot is UP with count 0 and the toggle
held, the trunk silence count is 0, a DOWN trunk goes UP, and neither trunk error counter rises. In a test frame another pattern than the slot's fails the
frame. -/
def Obligations.ValidWordTaken : Prop :=
  ∀ (s : State) (i : Fin 64) (a : Fin 8) (r : Role) (w : List Byte), s.WindowOpen i a r → wordGood w →
    s.trunk.slots[i].toggle ≠ some ((w.getD 0 0).getLsbD 0) →
    ∃ t, exec (.answerWindowClose w) s = .next t ∧
      t.trunk.slots[i] = { toggle := some ((w.getD 0 0).getLsbD 0), invalids := 0, up := true } ∧
      (∀ j : Fin 64, j ≠ i → t.trunk.slots[j] = s.trunk.slots[j]) ∧ t.trunk.silence = 0 ∧
      (s.trunk.state ≠ .test → t.trunk.state = .up) ∧
      t.trunk.validTaken = true ∧ t.trunk.crcErrors = s.trunk.crcErrors ∧
      t.trunk.staleErrors = s.trunk.staleErrors ∧ t.trunk.frameCounter = s.trunk.frameCounter ∧
      t.trunk.testFailed = (s.trunk.testFailed || (s.trunk.testFrame &&
        decide (numAt w 1 2 ≠ (s.trunk.frameCounter % 65536 + 4111 * i.val) % 65536))) ∧
      t.trunk.nextWindow = i.val + 1 ∧ t.nv = s.nv ∧
      t.tables = s.tables ∧ t.lines = s.lines ∧ t.pending = s.pending

/-- A bad CRC-8 counts in the CRC error counter, a repeated toggle in the stale counter, and a missing word in neither; a
word of more than 8 bytes counts as missing, which is the model's choice (log entry 12). Each raises the slot's count of
invalid outcomes up to 25, keeps its last valid toggle, and takes an UP slot to LOST when the count reaches 25; the count of
a LOST slot is 25. Each fails a test frame. Where the slot is not the last of the frame, nothing else of the trunk
changes. -/
def Obligations.InvalidOutcomeCounted : Prop :=
  ∀ (s : State) (i : Fin 64) (a : Fin 8) (r : Role) (w : List Byte), s.WindowOpen i a r →
    s.trunk.slots[i].invalids ≤ 25 →
    (w.length ≠ 8 ∨ ¬ wordGood w ∨ s.trunk.slots[i].toggle = some ((w.getD 0 0).getLsbD 0)) →
    ∃ t, exec (.answerWindowClose w) s = .next t ∧
      (∀ j : Fin 64, j ≠ i → t.trunk.slots[j] = s.trunk.slots[j]) ∧
      t.trunk.slots[i] = {
        toggle := s.trunk.slots[i].toggle,
        invalids := if s.trunk.slots[i].up then min 25 (s.trunk.slots[i].invalids + 1) else 25,
        up := s.trunk.slots[i].up && decide (s.trunk.slots[i].invalids + 1 < 25) } ∧
      t.trunk.testFailed = (s.trunk.testFailed || s.trunk.testFrame) ∧
      (i.val + 1 < s.trunk.slotCount → t.trunk = { s.trunk with
        nextWindow := i.val + 1, testFailed := t.trunk.testFailed,
        crcErrors := (if w.length = 8 ∧ ¬ crc8 (w.take 7) = w.getD 7 0
          then min 255 (s.trunk.crcErrors + 1) else s.trunk.crcErrors),
        staleErrors := (if w.length = 8 ∧ crc8 (w.take 7) = w.getD 7 0
          then min 255 (s.trunk.staleErrors + 1) else s.trunk.staleErrors),
        slots := t.trunk.slots }) ∧
      t.tables = s.tables ∧ t.nv = s.nv ∧ t.lines = s.lines ∧ t.pending = s.pending

/-- SLOT_LOST, when the next invalid outcome takes an UP slot to 25 (the command makes that rise and its test itself:
DEDUCED, log entry 2): the slot is LOST, the lost mark of a meter's slot is set, DEVICE_LOST reaches a batch that needs the
slot, and a transfer through the slot ends with DEVICE_ABSENT. Where one loss does both, the arm's sense is DEVICE_ABSENT,
since the Arm Controller acts before the Service Relay: the model's choice (log entry 9). A change of assignment at an
emission resets the slot's receive state, and does the same for the slot's old owner if the slot was UP; a response that
this releases goes out in the upstream frame of the same period event (R15). -/
def Obligations.SlotLostEffects : Prop :=
  (∀ (s : State) (i : Fin 64) (a : Fin 8) (r : Role), s.powered = true → i.val < s.trunk.slotCount →
    s.trunk.table[i] = { arm := a, role := r } → r ≠ .unused → s.trunk.slots[i].up = true →
    25 ≤ s.trunk.slots[i].invalids + 1 →
    ∃ (t : State) (y : Arm), exec (.slotLost i) s = .next t ∧
      t = { s with
        arms := t.arms, meters := t.meters, transfers := t.transfers, rack := t.rack,
        trunk := { s.trunk with
          slots := s.trunk.slots.set i { s.trunk.slots[i] with invalids := 25, up := false } } } ∧
      (∀ b p, t.meter b p =
        if b = a ∧ r = StreamPos.meterRole p then { s.meter b p with lost := true } else s.meter b p) ∧
      (∀ b, b ≠ a → t.arm b = s.arm b) ∧
      ((∃ c, (s.arm a).ctx = some c ∧ needs c.recipe r) → (s.arm a).Takes y .deviceLost) ∧
      ((∀ c, (s.arm a).ctx = some c → ¬ needs c.recipe r) → y = s.arm a) ∧
      (s.transfers[a].inFlight = false ∨ s.transfers[a].slot ≠ i →
        t.arm a = y ∧ t.transfers = s.transfers ∧ t.rack = s.rack) ∧
      (s.transfers[a].inFlight = true → s.transfers[a].slot = i →
        t.transfers[a].phase = .idle ∧ (∀ b : Fin 8, b ≠ a → t.transfers[b] = s.transfers[b]) ∧
        (s.transfers[a].wanted = false → t.arm a = y ∧ t.rack = s.rack) ∧
        (s.transfers[a].wanted = true →
          t.arm a = { y with sense := .deviceAbsent } ∧
          t.rack = { s.rack with
            discard := false,
            transaction := .sending [0x0E, 1, 11, if s.rack.discard then 1 else 0, 0] 0 false }))) ∧
  ∀ s : State, s.powered = true → s.timebase.internal = true →
    s.rack.up = false ∨ s.rack.silence + 1 < s.config.linkLossLimit → s.trunk.answering = false →
    ∃ t, exec .timebaseInternalPeriod s = .next t ∧
      t.trunk.slotCount = s.config.slotCount ∧ t.trunk.table = s.slotTable ∧
      ∀ i : Fin 64,
        let same := ∀ a r, Assigned s.trunk.slotCount s.trunk.table i a r ↔ Assigned s.config.slotCount s.slotTable i a r
        (same → t.trunk.slots[i] = s.trunk.slots[i]) ∧
        (¬ same → t.trunk.slots[i] = { toggle := none, invalids := 25, up := false }) ∧
        (¬ same → s.trunk.slots[i].up = true → ∀ a r, Assigned s.trunk.slotCount s.trunk.table i a r →
          (∀ p, r = StreamPos.meterRole p → (t.meter a p).lost = true) ∧
          (s.transfers[a].inFlight = true → s.transfers[a].slot = i → t.transfers[a].phase = .idle ∧
            (s.HeldMatches → s.transfers[a].wanted = true → t.rack.transaction = .none ∧
              (t.rack.upstream.drop 167).take 7 = [4, 5, 0x0E, 1, 11, if s.rack.discard then 1 else 0, 0])) ∧
          ∀ c, (s.arm a).ctx = some c → needs c.recipe r → (s.arm a).state.flowing →
            (t.arm a).state = .closing ∧ (t.arm a).endReason = some .deviceLost)

/-- TRUNK_DOWN, when the silence count of an UP trunk next reaches 25 (the command makes that rise and its test itself:
DEDUCED, log entry 2): the trunk is DOWN, both trunk error counters are 0, every flowing batch ends with TRUNK_LOST and a
closing one adds it to its causes. TEST_END, for a running test whose frames have run out and whose last answer interval
has ended: COMPLETE, and the trunk UP when its silence count is below 25, otherwise DOWN; while windows are open it leaves
the state. The same inside ANSWER_WINDOW_CLOSE, where the close of a last, unassigned window ends the answer interval: the
silence count, the result of a test frame, the end of the test, the start windows and the transfers in REPLY each take
their step, in an order that is the model's choice (log entry 10), as are the 0 frames of a closed window (log entry 27). -/
def Obligations.TrunkDownAndTestEnd : Prop :=
  (∀ s : State, s.powered = true →
    (s.trunk.state = .up → 25 ≤ s.trunk.silence + 1 →
      ∃ t, exec .trunkDown s = .next t ∧
        t = { s with arms := t.arms,
                     trunk := { s.trunk with state := .down, silence := 25, crcErrors := 0, staleErrors := 0 } } ∧
        (∀ a, (s.arm a).state.flowing → (s.arm a).ClosedBy (t.arm a) .trunkLost) ∧
        (∀ a, (s.arm a).state = .closing → (s.arm a).endReason ≠ some .trunkLost →
          EndCause.trunkLost ∉ (s.arm a).secondary →
          t.arm a = { s.arm a with secondary := (s.arm a).secondary ++ [.trunkLost], sense := .trunkLost }) ∧
        (∀ a, ¬ (s.arm a).state.flowing → (s.arm a).state ≠ .closing → t.arm a = s.arm a)) ∧
    (s.trunk.test.state = .running → s.trunk.test.remaining = 0 → s.trunk.answering = false →
      ∃ t, exec .testEnd s = .next t ∧
        (s.trunk.silence < 25 → t = { s with trunk := { s.trunk with
          state := .up, test := { s.trunk.test with state := .complete } } }) ∧
        (25 ≤ s.trunk.silence →
          t = { s with arms := t.arms,
                       trunk := { s.trunk with
                         state := .down, crcErrors := 0, staleErrors := 0,
                         test := { s.trunk.test with state := .complete } } } ∧
          ∀ a, ¬ (s.arm a).state.flowing → (s.arm a).state ≠ .closing → t.arm a = s.arm a)) ∧
    (s.trunk.answering = true → exec .testEnd s = .next s)) ∧
  ∀ (s : State) (i : Fin 64), s.powered = true → s.trunk.answering = true → s.trunk.nextWindow = i.val →
    s.trunk.slotCount = i.val + 1 → s.trunk.table[i].role = .unused →
    let n := if s.trunk.validTaken = true then s.trunk.silence else min 25 (s.trunk.silence + 1)
    let ended := s.trunk.test.state = .running ∧ s.trunk.test.remaining = 0
    let gone := (ended ∧ 25 ≤ n) ∨ (s.trunk.validTaken = false ∧ s.trunk.state = .up ∧ n = 25)
    ∃ t, exec (.answerWindowClose []) s = .next t ∧
      t.trunk = { s.trunk with
        answering := false, nextWindow := i.val + 1, silence := n,
        state := if gone then .down else if ended then .up else s.trunk.state,
        crcErrors := if gone then 0 else s.trunk.crcErrors, staleErrors := if gone then 0 else s.trunk.staleErrors,
        test := { s.trunk.test with
          state := if ended then .complete else s.trunk.test.state,
          errors := if s.trunk.testFrame = true ∧ s.trunk.testFailed = true
            then (if s.trunk.test.errors < 65535 then s.trunk.test.errors + 1 else 65535) else s.trunk.test.errors } } ∧
      (∀ l : Fin 4, t.windows[l] =
        if s.windows[l].isOpen = false then s.windows[l]
        else if s.windows[l].remaining ≤ 1 then { isOpen := false, remaining := 0, pending := [] }
        else { s.windows[l] with remaining := s.windows[l].remaining - 1 }) ∧
      (∀ a : Fin 8, (s.transfers[a].phase ≠ .reply → t.transfers[a] = s.transfers[a]) ∧
        (s.transfers[a].phase = .reply → s.transfers[a].age + 1 < 100 →
          t.transfers[a] = { s.transfers[a] with age := s.transfers[a].age + 1 }) ∧
        (s.transfers[a].phase = .reply → 100 ≤ s.transfers[a].age + 1 → t.transfers[a].phase = .idle)) ∧
      ∀ a : Fin 8, (∀ p, ∃ j, Assigned s.trunk.slotCount s.trunk.table j a (StreamPos.meterRole p)) →
        s.transfers[a].phase ≠ .reply ∨ s.transfers[a].age + 1 < 100 → (s.arm a).state ≠ .startPending →
        (gone → (s.arm a).Takes (t.arm a) .trunkLost) ∧ (¬ gone → t.arm a = s.arm a)

/-- TRUNK_TEST: refused TEST_ACTIVE, BATCHES_OPEN, SERVICE_BUSY or BAD_FIELD by the first condition that holds, otherwise
accepted: the test RUNNING with its counts at 0 and the requested frames, the trunk in TEST. -/
def Obligations.TrunkTestDecided : Prop :=
  ∀ (s : State) (n : Nat), s.Ready → n < 65536 →
    let p := [BitVec.ofNat 8 (n / 256), BitVec.ofNat 8 n]
    exec (.trunkTest deviceByte p) s = .next (
      if s.trunk.test.state = .running then s.refused .trunkTest deviceByte .testActive
      else if ∃ a, (s.arm a).state ≠ .idle then s.refused .trunkTest deviceByte .batchesOpen
      else if ∃ a : Fin 8, s.transfers[a].phase ≠ .idle then s.refused .trunkTest deviceByte .serviceBusy
      else if n = 0 ∨ 60000 < n then s.refused .trunkTest deviceByte .badField
      else { s with trunk := { s.trunk with
        state := .test, test := { state := .running, remaining := n, framesRun := 0, errors := 0 } } }.answered
          .trunkTest [])

/-- R39, R142: READ_COUNTERS and READ_TOTALS are accepted in every state. The first returns 17 bytes with the counters,
the test, the trunk state and the slot state map; the counters and the test error count are then 0, and a COMPLETE test is
NONE with no frames run. The second returns 24 bytes for each arm in order and clears nothing. With a payload each is
answered BAD_REQUEST. The premises on the values are invariants, stated in RangesKept. -/
def Obligations.CountersAndTotalsRead : Prop :=
  ∀ s : State, s.Ready →
    (s.CountersInRange →
      ∃ payload : List Byte,
        exec (.readCounters deviceByte []) s = .next ({ s with
          rack := { s.rack with errors := 0 },
          trunk := { s.trunk with
            crcErrors := 0, staleErrors := 0,
            test := { s.trunk.test with
              errors := 0, state := if s.trunk.test.state = TestState.complete then .none else s.trunk.test.state,
              framesRun := if s.trunk.test.state = TestState.complete then 0 else s.trunk.test.framesRun } } }.answered
            .readCounters payload) ∧
        payload.length = 17 ∧ byteAt payload 0 = s.rack.errors ∧ byteAt payload 1 = s.trunk.crcErrors ∧
        byteAt payload 2 = s.trunk.staleErrors ∧ numAt payload 3 2 = s.trunk.test.errors ∧
        numAt payload 5 2 = s.trunk.test.framesRun ∧
        byteAt payload 7 = (match s.trunk.test.state with | .none => 0 | .running => 1 | .complete => 2) ∧
        byteAt payload 8 = (match s.trunk.state with | .down => 0 | .up => 1 | .test => 2) ∧
        ∀ i : Fin 64, (payload.getD (9 + i.val / 8) 0).getLsbD (i.val % 8) = s.trunk.slots[i].up) ∧
    ((∀ a p, (s.meter a p).totals.inRange) →
      ∃ payload : List Byte, exec (.readTotals deviceByte []) s = .next (s.answered .readTotals payload) ∧
        payload.length = 192 ∧ ∀ (a : Fin 8) (p : StreamPos),
          let o := 24 * a.val + (match p with | StreamPos.wild => 0 | StreamPos.ctrl => 12)
          numAt payload o 4 = (s.meter a p).totals.grossL ∧ numAt payload (o + 4) 2 = (s.meter a p).totals.grossMl ∧
          numAt payload (o + 6) 4 = (s.meter a p).totals.netL ∧ numAt payload (o + 10) 2 = (s.meter a p).totals.netMl) ∧
    ∀ p : List Byte, p ≠ [] →
      exec (.readCounters deviceByte p) s = .next (s.refused .readCounters deviceByte .badRequest) ∧
      exec (.readTotals deviceByte p) s = .next (s.refused .readTotals deviceByte .badRequest)

/-! ## Lines and batches -/

/-- The PERMIT line of an arm going inactive ends its flowing batch with PERMIT_LOST, joins the causes of a closing one, and
returns the arm from START_PENDING out of its lane's set, closing the window when the set is empty; ESTOP going active does
so for every arm with ESTOP, which empties and closes every open window. Any other change of these lines, and any change of
the CERT switch, is only held. That a closed window has 0 frames remaining is the model's choice (log entry 27); the
premise of the windows' clause is an invariant, stated in ContextsStayMatched. -/
def Obligations.LinesAct : Prop :=
  ∀ s : State, s.powered = true →
    (∀ (a : Fin 8) (b : Bool), (b = true ∨ s.lines.permit[a] = false) →
      exec (.permitLineChange a b) s =
        .next { s with lines := { s.lines with permit := s.lines.permit.set a b } }) ∧
    (∀ a : Fin 8, s.lines.permit[a] = true →
      ∃ t, exec (.permitLineChange a false) s = .next t ∧
        t = { s with lines := { s.lines with permit := s.lines.permit.set a false }, arms := t.arms,
                     windows := t.windows } ∧
        (∀ b, b ≠ a → t.arm b = s.arm b) ∧
        ((s.arm a).state ≠ .startPending → (s.arm a).Takes (t.arm a) .permitLost ∧ t.windows = s.windows) ∧
        ((s.arm a).state = .startPending →
          t.arm a = { s.arm a with state := .authorized, sense := .permitAbsent } ∧
          ∀ c, (s.arm a).ctx = some c →
            let rest := s.windows[c.settings.lane].pending.filter (· ≠ a)
            t.windows = s.windows.set c.settings.lane
              (if rest = [] then { isOpen := false, remaining := 0, pending := [] }
               else { s.windows[c.settings.lane] with pending := rest }))) ∧
    (s.lines.estop = false →
      ∃ t, exec (.estopChange true) s = .next t ∧
        t = { s with lines := { s.lines with estop := true }, arms := t.arms, windows := t.windows } ∧
        (∀ a, ((s.arm a).state ≠ .startPending → (s.arm a).Takes (t.arm a) .estop) ∧
          ((s.arm a).state = .startPending → t.arm a = { s.arm a with state := .authorized, sense := .estop })) ∧
        (s.WindowsMatch → ∀ l : Fin 4, t.windows[l] =
          if s.windows[l].isOpen = true then { isOpen := false, remaining := 0, pending := [] } else s.windows[l])) ∧
    (∀ b : Bool, (b = false ∨ s.lines.estop = true) →
      exec (.estopChange b) s = .next { s with lines := { s.lines with estop := b } }) ∧
    ∀ b : Bool, exec (.certChange b) s = .next { s with lines := { s.lines with certUnlocked := b } }

/-- AUTHORIZE opens a batch on an IDLE, enabled arm without a running echo test, for a recipe that is present and passes
its checks, with a preset of 50 to 40,000 L, each needed role held by exactly one slot that is UP, and both curves
defined. The arm is AUTHORIZED with the snapshot as its context; nothing outside the arm changes but the channel. -/
def Obligations.AuthorizeAccepted : Prop :=
  ∀ (s : State) (a : Fin 8) (form ref0 ref1 ref2 basis : Byte) (i : Fin 64) (r : Recipe) (preset txid : Nat),
    s.Ready → (s.arm a).state = .idle → s.trunk.test.state ≠ .running → (s.armEntry a).enabled = true →
    referenceNames form ref0 ref1 ref2 i → s.tables.recipes[i].work = some r → 50 ≤ preset → preset ≤ 40000 →
    basis = 0 ∨ basis = 1 → txid < 4294967296 → r.Fits → s.Equipped a r →
    let e := s.armEntry a
    let close := if (s.arm a).ring = [] then e.settings.initialCloseAhead
      else (s.arm a).ring.sum / (s.arm a).ring.length
    let context : Context := {
      recipe := r, slot := i, settings := e.settings, presetMl := preset * 1000, netBasis := (basis == 1), txid := txid,
      metro := s.nv.metroCounter, closeAhead := min close e.settings.closeAheadMax }
    let record : CurrentRecord := {
      state := .authorized, batchNumber := 0, startFrame := 0, wildK10 := e.wildK10, ctrlK10 := e.ctrlK10,
      wildCurve := e.wildCurve, ctrlCurve := e.ctrlCurve }
    let opened : AdditiveItem → AdditiveEntry := fun item => {
      item := item, state := .active, nextPoint := 0, target := 0, injected := 0, shot := none, bad := 0, good := 0,
      short := 0, long := 0, missed := 0 }
    exec (.authorize (armByte a) (authorizePayload form ref0 ref1 ref2 preset basis txid)) s =
      .next ((s.setArm a { s.arm a with
        state := .authorized, phase := .none, ctx := some context,
        wild := { gross := 0, net := 0, weight := 0, lastFactor := (s.meter a .wild).factor },
        ctrl := { gross := 0, net := 0, weight := 0, lastFactor := (s.meter a .ctrl).factor },
        deliveredAtClose := 0, holdCount := 0, holdTimer := 0, zeroCount := 0, settleAge := 0, endReason := none,
        secondary := [], unauthorized := 0, current := some record,
        ratio := { mode := if r.fraction = 0 then .straight else .ratio, ctrlSet := 0, maxDev := 0, outCount := 0,
                   limited := false },
        entries := r.additives.map opened, additiveFault := false }).answered .authorize [])

/-- AUTHORIZE refused: each condition, when the ones before it do not hold, gives its own sense code. The needed roles are
taken in the order WILD_METER, CTRL_METER, WILD_VALVE, CTRL_VALVE, then the injectors of the list: the first that not
exactly one slot holds gives SLOT_MISSING or SLOT_CONFLICT. -/
def Obligations.AuthorizeRefused : Prop :=
  ∀ (s : State) (a : Fin 8) (form ref0 ref1 ref2 basis : Byte) (preset txid : Nat),
    s.Ready → preset < 65536 → txid < 4294967296 →
    let run := exec (.authorize (armByte a) (authorizePayload form ref0 ref1 ref2 preset basis txid)) s
    let no : Sense → Prop := fun code => run = .next (s.refused .authorize (armByte a) code)
    let wild := s.tables.curves[(s.armEntry a).wildCurve].work
    let ctrl := s.tables.curves[(s.armEntry a).ctrlCurve].work
    ((s.arm a).state ≠ .idle → no .wrongState) ∧
    ((s.arm a).state = .idle → s.trunk.test.state = .running → no .testActive) ∧
    ((s.arm a).state = .idle → s.trunk.test.state ≠ .running → (s.armEntry a).enabled = false → no .armDisabled) ∧
    ((s.arm a).state = .idle → s.trunk.test.state ≠ .running → (s.armEntry a).enabled = true →
      (1 < form.toNat → no .badField) ∧
      (form.toNat ≤ 1 → (∀ i, ¬ referenceNames form ref0 ref1 ref2 i) → no .keyRange) ∧
      ∀ i : Fin 64, referenceNames form ref0 ref1 ref2 i →
        (s.tables.recipes[i].work = none → no .noRecipe) ∧
        ∀ r, s.tables.recipes[i].work = some r →
          (preset < 50 ∨ 40000 < preset → no .presetRange) ∧
          (50 ≤ preset → preset ≤ 40000 → 1 < basis.toNat → no .badField) ∧
          (50 ≤ preset → preset ≤ 40000 → basis.toNat ≤ 1 →
            (¬ r.Fits → no .recipeInvalid) ∧
            (∀ (pre post : List Role) (role : Role), r.Fits →
              [.wildMeter, .ctrlMeter, .wildValve, .ctrlValve] ++ r.additives.map (fun i => .inj i.injector) =
                pre ++ role :: post →
              (∀ x ∈ pre, ∃ k, ∀ j, s.assigns j a x ↔ j = k) →
              ((∀ j, ¬ s.assigns j a role) → no .slotMissing) ∧
              ((∃ j k, j ≠ k ∧ s.assigns j a role ∧ s.assigns k a role) → no .slotConflict)) ∧
            (r.Fits → (∀ role, needs r role → ∃ k, ∀ j, s.assigns j a role ↔ j = k) →
              (wild = [] ∨ ctrl = [] → no .curveInvalid) ∧
              (wild ≠ [] → ctrl ≠ [] →
                (∃ role, ∃ k : Fin 64, needs r role ∧ s.assigns k a role ∧ s.trunk.slots[k].up = false) →
                no .deviceAbsent))))

/-- START with the start conditions met: without join the arm enters RUNNING as the last frame's batch; with join it goes
START_PENDING and its snapshot's lane window opens or restarts at the start window of the device config. Refused, it gives
BAD_FIELD for another join flag, then WRONG_STATE, then the code of the first start condition that fails. -/
def Obligations.StartDecided : Prop :=
  ∀ (s : State) (a : Fin 8), s.Ready →
    (∀ c, (s.arm a).state = .authorized → (s.arm a).ctx = some c → s.MayStart a c →
      (∃ y, (s.arm a).StartedAs y c s.trunk.frameCounter ∧
        exec (.start (armByte a) [0]) s = .next ((s.setArm a y).answered .start [])) ∧
      (a ∉ s.windows[c.settings.lane].pending →
        exec (.start (armByte a) [1]) s =
          .next ({ s.setArm a { s.arm a with state := .startPending } with
            windows := s.windows.set c.settings.lane
              { isOpen := true, remaining := s.config.startWindow,
                pending := s.windows[c.settings.lane].pending ++ [a] } }.answered .start []))) ∧
    ∀ flag : Byte,
      (1 < flag.toNat → exec (.start (armByte a) [flag]) s = .next (s.refused .start (armByte a) .badField)) ∧
      (flag.toNat ≤ 1 → (s.arm a).state ≠ .authorized →
        exec (.start (armByte a) [flag]) s = .next (s.refused .start (armByte a) .wrongState)) ∧
      (∀ c, flag.toNat ≤ 1 → (s.arm a).state = .authorized → (s.arm a).ctx = some c → ¬ s.MayStart a c →
        exec (.start (armByte a) [flag]) s = .next (s.refused .start (armByte a) (s.startCode a)))

/-- R85, R101: CANCEL withdraws an AUTHORIZED batch (IDLE, context and current record gone, nothing recorded), returns a START_PENDING
arm to AUTHORIZED out of its lane's set, closing the window when the set is empty. CLEAR_FAULT takes a FAULTED arm to IDLE
with its unauthorized-flow accumulator 0. In any other state each is refused WRONG_STATE. What a withdrawn arm keeps of its
batch, and its phase, are the model's choice (log entry 24), and so are the 0 frames remaining of a closed window (log
entry 27). -/
def Obligations.CancelAndClearFaultDecided : Prop :=
  ∀ (s : State) (a : Fin 8), s.Ready →
    ((s.arm a).state = .authorized →
      exec (.cancel (armByte a) []) s = .next ((s.setArm a { s.arm a with
        state := .idle, phase := .none, ctx := none, current := none, entries := [],
        ratio := { (s.arm a).ratio with mode := .none } }).answered .cancel [])) ∧
    (∀ c, (s.arm a).state = .startPending → (s.arm a).ctx = some c →
      let rest := s.windows[c.settings.lane].pending.filter (· ≠ a)
      exec (.cancel (armByte a) []) s = .next ({ s.setArm a { s.arm a with state := .authorized } with
        windows := s.windows.set c.settings.lane
          (if rest = [] then { isOpen := false, remaining := 0, pending := [] }
           else { s.windows[c.settings.lane] with pending := rest }) }.answered .cancel [])) ∧
    ((s.arm a).state ≠ .authorized → (s.arm a).state ≠ .startPending →
      exec (.cancel (armByte a) []) s = .next (s.refused .cancel (armByte a) .wrongState)) ∧
    ((s.arm a).state = .faulted →
      exec (.clearFault (armByte a) []) s =
        .next ((s.setArm a { s.arm a with state := .idle, unauthorized := 0 }).answered .clearFault [])) ∧
    ((s.arm a).state ≠ .faulted →
      exec (.clearFault (armByte a) []) s = .next (s.refused .clearFault (armByte a) .wrongState))

/-- R141: GET_SENSE is accepted in every state: it returns the sense code of its arm, or of the device for arm 255, and
clears it. With a payload or another arm field it is answered BAD_REQUEST, which is recorded for the arm or the device. -/
def Obligations.SenseReadAndCleared : Prop :=
  ∀ s : State, s.Ready →
    (∀ a, exec (.getSense (armByte a) []) s =
      .next ((s.modArm a (fun x => { x with sense := .none })).answered .getSense
        [BitVec.ofNat 8 (s.arm a).sense.code])) ∧
    exec (.getSense deviceByte []) s =
      .next ({ s with rack := { s.rack with deviceSense := .none } }.answered .getSense
        [BitVec.ofNat 8 s.rack.deviceSense.code]) ∧
    ∀ (arm : Byte) (p : List Byte), p ≠ [] ∨ (7 < arm.toNat ∧ arm ≠ 255) →
      exec (.getSense arm p) s = .next (s.refused .getSense arm .badRequest)

/-- READ_RECORD is accepted in every arm state for selector 0 or 1: a single byte 0 for an absent record, otherwise the
record as it stands, every field at its offset of section 8.1. The current record's fields are those its batch was
authorized with, its live fields those of their owners; fraction, ratio status, overshoot, overrun, end frame and
outcomes are still absent, the end reason until CLOSING. Any other selector is refused BAD_FIELD. The premises on the
lengths are invariants, stated in RangesKept. When the request comes as the ONLY segment of a rack frame, the frame that
answers it carries the first segment of the response, with the last-batch record as it stands once the windows still open
have closed, and its image of the arm shows the record toggle that belongs with that record: a finalize in those windows is
in both (R138, R15). The premises on the channel say that it is free. -/
def Obligations.RecordsRead : Prop :=
  ∀ (s : State) (a : Fin 8), s.Ready →
    ((s.arm a).current = none → exec (.readRecord (armByte a) [0]) s = .next (s.answered .readRecord [0])) ∧
    (∀ r c, (s.arm a).current = some r → (s.arm a).ctx = some c → c.recipe.InRange →
      (s.arm a).entries.length ≤ 4 →
      let x := s.arm a
      ∃ (bytes : List Byte) (wildAvg ctrlAvg : Option Int),
        exec (.readRecord (armByte a) [0]) s = .next (s.answered .readRecord bytes) ∧
        x.wild.Averages wildAvg ∧ x.ctrl.Averages ctrlAvg ∧
        Record.CarriedBy
          { state := r.state, arm := a, batchNumber := r.batchNumber, txid := c.txid, slot := c.slot,
            name := c.recipe.name, presetMl := c.presetMl, netBasis := c.netBasis, startFrame := r.startFrame,
            endFrame := 0, wild := r.liveStream c .wild x.wild wildAvg, ctrl := r.liveStream c .ctrl x.ctrl ctrlAvg,
            finalFraction := none, ratioStatus := .absent, maxDev := x.ratio.maxDev,
            remaining := c.presetMl -
              (if c.netBasis then x.wild.net + x.ctrl.net else x.wild.gross + x.ctrl.gross),
            overshoot := 0, overshootFlag := false, closeAhead := c.closeAhead, overrun := 0,
            holdCount := x.holdCount, endReason := if r.state = .closing then x.endReason else none,
            secondary := x.secondary, metro := c.metro,
            additives := x.entries.map (fun e => {
              injector := e.item.injector, target := e.target, injected := e.injected, good := e.good,
              short := e.short, long := e.long, missed := e.missed, outcome := .absent }) } bytes) ∧
    ((s.arm a).last = none → exec (.readRecord (armByte a) [1]) s = .next (s.answered .readRecord [0])) ∧
    (∀ r, (s.arm a).last = some r → r.fits →
      ∃ bytes : List Byte,
        exec (.readRecord (armByte a) [1]) s = .next (s.answered .readRecord bytes) ∧ r.CarriedBy bytes) ∧
    (∀ k : Byte, 1 < k.toNat →
      exec (.readRecord (armByte a) [k]) s = .next (s.refused .readRecord (armByte a) .badField)) ∧
    ∀ (us : Nat) (f : List Byte), s.passesChecks (s.nowUs + us) f → byteAt f 11 = 4 →
      (f.drop 13).take (byteAt f 12) = [6, armByte a, 1, 1] → s.rack.assembly = none →
      (∀ b : Fin 8, s.transfers[b].wanted = false) →
      let v := s.cutWindows 65
      ∃ (payload : List Byte) (t : State),
        exec (.readRecord (armByte a) [1]) v = .next (v.answered .readRecord payload) ∧
        exec (.rackFrameReceived us f) s = .next t ∧
        let first := (v.answered .readRecord payload).rack.transaction.segment
        t.rack.upstream.getD 167 0 = BitVec.ofNat 8 first.1 ∧
        (t.rack.upstream.drop 169).take first.2.1.length = first.2.1 ∧ t.rack.transaction = first.2.2.1 ∧
        (t.rack.upstream.getD (9 + 20 * a.val) 0).getLsbD 4 = (v.arm a).toggle ∧
        (t.arm a).toggle = (v.arm a).toggle ∧ (t.arm a).last = (v.arm a).last

/-- START_WINDOW_EXPIRY, when an open window's count runs out (the command makes that fall and its test itself: DEDUCED, log
entry 2): each pending arm that meets the start conditions enters RUNNING, every other one returns to AUTHORIZED with the
code of its first failing condition, and the window closes empty. The same inside ANSWER_WINDOW_CLOSE, where the close of
a last, unassigned window ends the answer interval of a frame with a valid word. That a closed window has 0 frames
remaining is the model's choice (log entry 27). -/
def Obligations.WindowExpiryStartsOrReturns : Prop :=
  (∀ (s : State) (l : Fin 4), s.powered = true → s.windows[l].isOpen = true → s.windows[l].remaining ≤ 1 →
    ∃ t, exec (.startWindowExpiry l) s = .next t ∧
      t = { s with arms := t.arms,
                   windows := s.windows.set l { isOpen := false, remaining := 0, pending := [] } } ∧
      (∀ a, a ∉ s.windows[l].pending → t.arm a = s.arm a) ∧
      (∀ a c, a ∈ s.windows[l].pending → (s.arm a).state = .startPending → (s.arm a).ctx = some c →
        (s.MayStart a c → (s.arm a).StartedAs (t.arm a) c s.trunk.frameCounter) ∧
        (¬ s.MayStart a c → t.arm a = { s.arm a with state := .authorized, sense := s.startCode a }))) ∧
  ∀ (s : State) (i : Fin 64), s.powered = true → s.trunk.answering = true → s.trunk.nextWindow = i.val →
    s.trunk.slotCount = i.val + 1 → s.trunk.table[i].role = .unused → s.trunk.validTaken = true →
    s.trunk.test.state ≠ .running →
    ∃ t, exec (.answerWindowClose []) s = .next t ∧
      ∀ (l : Fin 4) (a : Fin 8) (c : Context), s.windows[l].isOpen = true → s.windows[l].remaining ≤ 1 →
        a ∈ s.windows[l].pending → (s.arm a).state = .startPending → (s.arm a).ctx = some c →
        (∀ p, ∃ j, Assigned s.trunk.slotCount s.trunk.table j a (StreamPos.meterRole p)) →
        s.transfers[a].phase ≠ .reply ∨ s.transfers[a].age + 1 < 100 →
        t.windows[l] = { isOpen := false, remaining := 0, pending := [] } ∧
        (s.MayStart a c → (s.arm a).StartedAs (t.arm a) c s.trunk.frameCounter) ∧
        (¬ s.MayStart a c → t.arm a = { s.arm a with state := .authorized, sense := s.startCode a })

/-- ARM_SETTLED: the 20th consecutive zero frame takes a HOLDING arm to HELD, and on to RUNNING with its phase set anew
when the resume conditions hold; a CLOSING batch finalizes with its causes as they stand and a save is queued.
SETTLE_LIMIT: a CLOSING batch not settled at the limit finalizes with VALVE_LEAK, in place of NORMAL when no cause is
beside it and as a secondary cause, once, otherwise, and the arm is FAULTED. Each command makes the rise and the test it
stands for itself: DEDUCED, log entry 2. The same inside ANSWER_WINDOW_CLOSE, when a meter's silent window or its valid word
closes the arm frame: the zero count takes the frame's samples, rising while both are 0 and falling to 0 otherwise (R90), a
HOLDING or CLOSING arm below 20 goes on with its timer raised, one at 20 settles, and one at the settle limit leaks. -/
def Obligations.SettlingFinalizes : Prop :=
  ∀ (s : State) (a : Fin 8) (c : Context), s.powered = true → (s.arm a).ctx = some c →
    let go := s.rack.levels[a].hold = false ∧ s.rack.levels[a].runPermit = true ∧ s.lines.permit[a] = true ∧
      s.lines.estop = false
    let leaks : Arm → EndCause → Arm → Prop := fun x reason y =>
      y.state = .faulted ∧
      (if reason = .normal ∧ x.secondary = []
       then x.FinalizedAs y a c s.trunk.frameCounter .valveLeak [] ∧ y.sense = .valveLeak
       else if reason = .valveLeak ∨ EndCause.valveLeak ∈ x.secondary
       then x.FinalizedAs y a c s.trunk.frameCounter reason x.secondary ∧ y.sense = x.sense
       else x.FinalizedAs y a c s.trunk.frameCounter reason (x.secondary ++ [.valveLeak]) ∧ y.sense = .valveLeak)
    ((s.meter a .wild).sample = some 0 → (s.meter a .ctrl).sample = some 0 → 19 ≤ (s.arm a).zeroCount →
      ((s.arm a).state = .holding →
        (go → exec (.armSettled a) s = .next (s.setArm a { s.arm a with
          zeroCount := 20, state := .running, wildSet := 0, ratio := { (s.arm a).ratio with ctrlSet := 0 },
          phase := if (s.arm a).remaining ≤ c.settings.topOff * 1000 then .topOff else .startLow })) ∧
        (¬ go → exec (.armSettled a) s = .next (s.setArm a { s.arm a with zeroCount := 20, state := .held }))) ∧
      (∀ r reason, (s.arm a).state = .closing → (s.arm a).current = some r → (s.arm a).endReason = some reason →
        ∃ t, exec (.armSettled a) s = .next t ∧
          (s.arm a).FinalizedAs (t.arm a) a c s.trunk.frameCounter reason (s.arm a).secondary ∧
          (t.arm a).sense = (s.arm a).sense ∧ t.SavePending a ∧ (∀ b, b ≠ a → t.arm b = s.arm b) ∧
          t = { s with arms := t.arms, store := t.store })) ∧
    (∀ r reason, (s.arm a).state = .closing → (s.arm a).current = some r → (s.arm a).endReason = some reason →
      s.config.settleLimit ≤ (s.arm a).settleAge + 1 →
      ∀ wild ctrl, (s.meter a .wild).sample = wild → (s.meter a .ctrl).sample = ctrl →
        (wild = none ∨ ctrl = none → (s.arm a).zeroCount < 20) →
        (wild = some 0 → ctrl = some 0 → (s.arm a).zeroCount < 19) →
        ∃ t, exec (.settleLimit a) s = .next t ∧ leaks (s.arm a) reason (t.arm a) ∧ t.SavePending a ∧
          (∀ b, b ≠ a → t.arm b = s.arm b) ∧ t = { s with arms := t.arms, store := t.store }) ∧
    ∀ (i : Fin 64) (p : StreamPos) (w : List Byte) (x : Arm) (z : Nat), s.FrameCloses i a p w x z →
      x.StraightWithin → (∀ e ∈ x.entries, e.shot = none) →
      ∃ t, exec (.answerWindowClose w) s = .next t ∧ (∀ b, b ≠ a → t.arm b = s.arm b) ∧
        (x.state = .holding → x.holdTimer + 1 < s.config.holdLimitS * 1000 / s.config.periodMs →
          let counted : Arm := { x with holdTimer := x.holdTimer + 1, zeroCount := z }
          (z < 20 → t.arm a = counted) ∧ (20 ≤ z → ¬ go → t.arm a = { counted with state := .held }) ∧
          (20 ≤ z → go → t.arm a = { counted with
            state := .running, wildSet := 0, ratio := { x.ratio with ctrlSet := 0 },
            phase := if x.remaining ≤ c.settings.topOff * 1000 then .topOff else .startLow,
            entries := (t.arm a).entries, injectors := (t.arm a).injectors })) ∧
        ∀ r reason, x.state = .closing → x.current = some r → x.endReason = some reason →
          (20 ≤ z → x.FinalizedAs (t.arm a) a c s.trunk.frameCounter reason x.secondary ∧
            (t.arm a).sense = x.sense ∧ t.SavePending a) ∧
          (z < 20 → x.settleAge + 1 < s.config.settleLimit →
            t.arm a = { x with zeroCount := z, settleAge := x.settleAge + 1 }) ∧
          (z < 20 → s.config.settleLimit ≤ x.settleAge + 1 → leaks x reason (t.arm a) ∧ t.SavePending a)

/-- HOLD_TIMEOUT: the hold timer of a HOLDING or HELD arm reaches the hold limit in frames. TEMP_LOST: the temperature age
of a meter is at or above its limit. RATIO_FAULT: the count of band checks outside the band reaches the persistence. Each
ends a flowing batch with its cause; TEMP_LOST joins the causes of a closing one once. HOLD_TIMEOUT and RATIO_FAULT make
the rise and the test they stand for themselves: DEDUCED, log entry 2. TEMP_LOST and HOLD_TIMEOUT also follow inside
ANSWER_WINDOW_CLOSE, when a silent window settles the meter, and when a silent window or a valid word closes the arm frame. -/
def Obligations.WatchesEndBatch : Prop :=
  ∀ (s : State) (a : Fin 8), s.powered = true →
    ((s.arm a).state = .holding ∨ (s.arm a).state = .held →
      s.config.holdLimitS * 1000 / s.config.periodMs ≤ (s.arm a).holdTimer + 1 →
      ∃ t, exec (.holdTimeout a) s = .next t ∧ t = s.setArm a (t.arm a) ∧
        (s.arm a).ClosedBy (t.arm a) .holdTimeout) ∧
    (∀ p : StreamPos, s.config.tempHoldLimit ≤ (s.meter a p).age →
      ∃ t, exec (.tempLost a p) s = .next t ∧ t = s.setArm a (t.arm a) ∧
        ((s.arm a).state.flowing → (s.arm a).ClosedBy (t.arm a) .tempLost) ∧
        ((s.arm a).state = .closing →
          t.arm a = if (s.arm a).endReason = some .tempLost ∨ EndCause.tempLost ∈ (s.arm a).secondary then s.arm a
            else { s.arm a with secondary := (s.arm a).secondary ++ [.tempLost], sense := .tempLost }) ∧
        (¬ (s.arm a).state.flowing → (s.arm a).state ≠ .closing → t.arm a = s.arm a)) ∧
    (∀ c : Context, (s.arm a).state = .running → (s.arm a).ratio.mode = .ratio → (s.arm a).ctx = some c →
      let n := (s.arm a).wild.net + (s.arm a).ctrl.net
      let e := if c.recipe.ethanolControlled then (s.arm a).ctrl.net else (s.arm a).wild.net
      c.recipe.checkVolume * 1000 ≤ n → 0 < n →
      c.recipe.band < Int.natAbs (((e * 10000 / n : Nat) : Int) - c.recipe.fraction) → c.recipe.persistence ≤ 500 →
      c.recipe.persistence ≤ (s.arm a).ratio.outCount + 1 →
      ∃ t, exec (.ratioFault a) s = .next t ∧ t = s.setArm a (t.arm a) ∧
        (s.arm a).ClosedBy (t.arm a) .ratioFault ∧ (t.arm a).ratio.maxDev = (s.arm a).ratio.maxDev) ∧
    (∀ (i : Fin 64) (p : StreamPos), s.MeterSilent i a p →
      (∀ q, q ≠ p → (s.meter a q).settledFrame ≠ s.trunk.frameCounter) →
      ∃ t, exec (.answerWindowClose []) s = .next t ∧
        let age := if (s.meter a p).age < 3000 then (s.meter a p).age + 1 else 3000
        (t.meter a p).age = age ∧ (t.meter a p).settledFrame = s.trunk.frameCounter ∧
        (s.config.tempHoldLimit ≤ age → (s.arm a).Takes (t.arm a) .tempLost) ∧
        (age < s.config.tempHoldLimit → t.arm a = s.arm a) ∧ ∀ b, b ≠ a → t.arm b = s.arm b) ∧
    ∀ (i : Fin 64) (p : StreamPos) (w : List Byte) (x : Arm) (z : Nat), s.FrameCloses i a p w x z →
      x.StraightWithin → x.state = .holding ∨ x.state = .held → (∀ e ∈ x.entries, e.shot = none) →
      ∃ t, exec (.answerWindowClose w) s = .next t ∧ (∀ b, b ≠ a → t.arm b = s.arm b) ∧
        (s.config.holdLimitS * 1000 / s.config.periodMs ≤ x.holdTimer + 1 → x.ClosedBy (t.arm a) .holdTimeout) ∧
        (x.holdTimer + 1 < s.config.holdLimitS * 1000 / s.config.periodMs →
          (x.state = .held → t.arm a = { x with holdTimer := x.holdTimer + 1 }) ∧
          (x.state = .holding → z < 20 → t.arm a = { x with holdTimer := x.holdTimer + 1, zeroCount := z }))

/-- SHOT_TIMEOUT: a shot whose age reaches 100 is MISSED: its count rises, nothing is added to the injected volume, the
consecutive-bad count rises. Below 3 bad shots nothing else changes; the third fails the entry, STOP raises ADDITIVE_FAIL,
CONTINUE sets the additive fault flag. The command makes the rise of the age and its test itself: DEDUCED, log entry 2.
The same inside ANSWER_WINDOW_CLOSE, when a meter's silent window or its valid word closes the frame of a HELD arm. -/
def Obligations.ShotTimesOut : Prop :=
  ∀ (s : State) (a : Fin 8) (k : Fin 4) (e : AdditiveEntry) (sh : Shot), s.powered = true →
    (s.arm a).entries[k.val]? = some e → e.shot = some sh → 99 ≤ sh.age →
    let e1 := { e with shot := none, missed := if e.missed < 65535 then e.missed + 1 else 65535, bad := e.bad + 1 }
    let failed : Arm → Arm := fun x => { x with entries := x.entries.set k.val { e1 with state := .failed } }
    (e.bad < 2 →
      exec (.shotTimeout a k) s = .next (s.modArm a (fun x => { x with entries := x.entries.set k.val e1 }))) ∧
    (e.bad = 2 → e.state ≠ .failed → e.item.stop = false →
      exec (.shotTimeout a k) s = .next (s.setArm a { failed (s.arm a) with additiveFault := true })) ∧
    (e.bad = 2 → e.state ≠ .failed → e.item.stop = true →
      ∃ t, exec (.shotTimeout a k) s = .next t ∧ t = s.setArm a (t.arm a) ∧
        (failed (s.arm a)).Takes (t.arm a) .additiveFail ∧
        (t.arm a).entries[k.val]? = some { e1 with state := .failed }) ∧
    ∀ (i : Fin 64) (p : StreamPos) (w : List Byte) (x : Arm) (z : Nat), s.FrameCloses i a p w x z →
      x.StraightWithin → x.state = .held → x.holdTimer + 1 < s.config.holdLimitS * 1000 / s.config.periodMs →
      (∀ (j : Nat) (e' : AdditiveEntry), x.entries[j]? = some e' → j ≠ k.val → e'.shot = none) →
      ∃ t, exec (.answerWindowClose w) s = .next t ∧ (∀ b, b ≠ a → t.arm b = s.arm b) ∧
        (e.bad < 2 → t.arm a = { x with
          holdTimer := x.holdTimer + 1, entries := x.entries.set k.val e1 }) ∧
        (e.bad = 2 → e.state ≠ .failed → e.item.stop = false →
          t.arm a = { failed x with holdTimer := x.holdTimer + 1, additiveFault := true }) ∧
        (e.bad = 2 → e.state ≠ .failed → e.item.stop = true → 1 < s.config.settleLimit →
          (t.arm a).state = .closing ∧ (t.arm a).endReason = some .additiveFail ∧
          (t.arm a).sense = .additiveFail ∧ (t.arm a).secondary = x.secondary ∧
          (t.arm a).entries[k.val]? = some { e1 with state := .failed })

/-- Outside RUNNING both set-points of every arm are 0: every command keeps this. -/
def Obligations.SetpointsStayAtRest : Prop :=
  ∀ s t : State, s.SetpointsRest → step s = .next t → t.SetpointsRest

/-- From AUTHORIZE until finalize the gross and net totals of each stream never decrease: no command lowers them while the
batch stays open. The record toggle changes once for each finalize (R137), so an arm that is open before and after a command
with the same toggle holds the same batch. The premise leaves out one case alone, of two batches: a rack frame whose windows
cut short finalize the batch and whose segment authorizes the next one, which begins at 0. -/
def Obligations.BatchTotalsNeverDecrease : Prop :=
  ∀ (s t : State) (a : Fin 8), step s = .next t → (s.arm a).isOpen = true → (t.arm a).isOpen = true →
    (t.arm a).toggle = (s.arm a).toggle →
    (s.arm a).wild.gross ≤ (t.arm a).wild.gross ∧ (s.arm a).wild.net ≤ (t.arm a).wild.net ∧
    (s.arm a).ctrl.gross ≤ (t.arm a).ctrl.gross ∧ (s.arm a).ctrl.net ≤ (t.arm a).ctrl.net

/-- An arm has its context, its current record and its ratio mode exactly while its batch is open, and additive entries
only then; and an arm waits in a lane's start window exactly while it is START_PENDING with that lane in its snapshot, and a
window is open exactly when its set is not empty: every command keeps both. -/
def Obligations.ContextsStayMatched : Prop :=
  (∀ s t : State, s.ContextsMatch → step s = .next t → t.ContextsMatch) ∧
  ∀ s t : State, s.WindowsMatch → step s = .next t → t.WindowsMatch

/-! ## Service -/

/-- SERVICE through a filled place of its arm, whose slot is assigned to the arm and UP, with no transfer in flight, and
for a meter WRITE with CERT UNLOCKED and no open batch: the transfer enters REQUEST, the transaction is HELD, and a meter
WRITE raises the metrological change counter. Otherwise it is refused, by the first of the six conditions of R163 that
holds: BAD_FIELD, NO_ALIAS, DEVICE_ABSENT, SERVICE_BUSY, CERT_LOCKED, BATCHES_OPEN. -/
def Obligations.ServiceAccepted : Prop :=
  (∀ (s : State) (a k : Fin 8) (i : Fin 64) (r : Role) (write : Bool) (q : List Byte), s.Ready → 1 ≤ q.length →
    q.length ≤ 32 → s.tables.aliases[a].work[k] = some i → s.assigns i a r → s.trunk.slots[i].up = true →
    s.transfers[a].phase = .idle →
    (write = true → (r = .wildMeter ∨ r = .ctrlMeter) → s.lines.certUnlocked = true ∧ (s.arm a).isOpen = false) →
    exec (.service (armByte a) ([BitVec.ofNat 8 k.val, if write then 1 else 0] ++ q)) s = .next { s with
      transfers := s.transfers.set a
        { phase := .request, slot := i, write := write, request := q, classSent := false, next := 0, reply := [],
          count := 0, truncated := false, age := 0, wanted := true },
      nv := if write = true ∧ (r = .wildMeter ∨ r = .ctrlMeter)
        then { s.nv with metroCounter := if s.nv.metroCounter < 65535 then s.nv.metroCounter + 1 else 65535 }
        else s.nv,
      rack := { s.rack with assembly := none, transaction := .held a },
      store := { s.store with prepared := false } }) ∧
  ∀ (s : State) (a : Fin 8) (place cls : Byte) (q : List Byte), s.Ready → 1 ≤ q.length → q.length ≤ 32 →
    let no : Sense → Prop := fun code =>
      exec (.service (armByte a) ([place, cls] ++ q)) s = .next (s.refused .service (armByte a) code)
    (7 < place.toNat ∨ 1 < cls.toNat → no .badField) ∧
    ∀ k : Fin 8, place.toNat = k.val → cls.toNat ≤ 1 →
      (s.tables.aliases[a].work[k] = none → no .noAlias) ∧
      ∀ i, s.tables.aliases[a].work[k] = some i →
        ((∀ r, ¬ s.assigns i a r) ∨ s.trunk.slots[i].up = false → no .deviceAbsent) ∧
        ∀ r, s.assigns i a r → s.trunk.slots[i].up = true →
          (s.transfers[a].phase ≠ .idle → no .serviceBusy) ∧
          (s.transfers[a].phase = .idle → cls = 1 → r = .wildMeter ∨ r = .ctrlMeter →
            (s.lines.certUnlocked = false → no .certLocked) ∧
            (s.lines.certUnlocked = true → (s.arm a).isOpen = true → no .batchesOpen))

/-- A transfer's bytes, its reply and its end. At an emission with no window open, below the link loss limit and with no
change of assignment, the slot's word carries the class with START and ACTIVE, then one request byte a frame with ACTIVE,
the last with END, and the transfer enters REPLY with age 0; in REPLY it carries the reply count with ACTIVE. In REPLY a
valid word of the slot with ACTIVE gives one reply byte, the first 32 kept and a further one noted as TRUNCATED; with END
the transfer returns to IDLE and a wanted response is released ACCEPTED. SERVICE_TIMEOUT: a transfer whose reply age
reaches 100 (the command makes that rise and its test itself: DEDUCED, log entry 2) returns to IDLE; a wanted response
is released REFUSED with SERVICE_TIMEOUT, which becomes the arm's sense code, and an unwanted one releases nothing. -/
def Obligations.ServiceTimesOut : Prop :=
  (∀ (s : State) (a : Fin 8), s.powered = true → s.transfers[a].phase = .reply → 99 ≤ s.transfers[a].age →
    ∃ t, exec (.serviceTimeout a) s = .next t ∧ t.transfers[a].phase = .idle ∧
      (∀ b : Fin 8, b ≠ a → t.transfers[b] = s.transfers[b]) ∧
      (s.transfers[a].wanted = false → t = { s with transfers := t.transfers }) ∧
      (s.transfers[a].wanted = true →
        t = { s with
          transfers := t.transfers, arms := s.arms.set a { s.arm a with sense := .serviceTimeout },
          rack := { s.rack with
            discard := false,
            transaction := .sending [0x0E, 1, 26, if s.rack.discard then 1 else 0, 0] 0 false } })) ∧
  (∀ (s : State) (a : Fin 8), s.QuietPeriod → s.transfers[a].slot.val < s.trunk.slotCount →
    (∀ b : Fin 8, b ≠ a → s.transfers[b].phase = .idle ∨ s.transfers[b].slot ≠ s.transfers[a].slot) →
    ∃ t, exec .timebaseInternalPeriod s = .next t ∧
      let x := s.transfers[a]
      let word := (t.trunk.downstream.drop (5 + 6 * x.slot.val)).take 6
      let shows : Byte → Bool → Bool → Prop := fun b start fin =>
        word.getD 4 0 = b ∧ (word.getD 1 0).getLsbD 1 = start ∧ (word.getD 1 0).getLsbD 2 = fin ∧
        (word.getD 1 0).getLsbD 3 = true
      (x.phase = .request → x.classSent = false →
        shows (if x.write then 1 else 0) true false ∧ t.transfers[a] = { x with classSent := true }) ∧
      (x.phase = .request → x.classSent = true → x.next + 1 < x.request.length →
        shows (x.request.getD x.next 0) false false ∧ t.transfers[a] = { x with next := x.next + 1 }) ∧
      (x.phase = .request → x.classSent = true → x.next + 1 = x.request.length →
        shows (x.request.getD x.next 0) false true ∧
        t.transfers[a] = { x with phase := .reply, next := x.next + 1, age := 0 }) ∧
      (x.phase = .reply → shows (BitVec.ofNat 8 x.count) false false ∧ t.transfers[a] = x) ∧
      (x.phase = .idle → t.transfers[a] = x ∧
        word.getD 4 0 = 0 ∧ ∀ j, j = 1 ∨ j = 2 ∨ j = 3 → (word.getD 1 0).getLsbD j = false)) ∧
  ∀ (s : State) (i : Fin 64) (a : Fin 8) (r : Role) (w : List Byte), s.WindowOpen i a r →
    i.val + 1 < s.trunk.slotCount → wordGood w → s.trunk.slots[i].toggle ≠ some ((w.getD 0 0).getLsbD 0) →
    ∃ t, exec (.answerWindowClose w) s = .next t ∧
      let x := s.transfers[a]
      let taken : Transfer := if x.count < 32 then { x with reply := x.reply ++ [w.getD 6 0], count := x.count + 1 }
        else { x with truncated := true, count := x.count + 1 }
      (∀ b : Fin 8, b ≠ a → t.transfers[b] = s.transfers[b]) ∧
      (x.phase ≠ .reply ∨ x.slot ≠ i ∨ (w.getD 0 0).getLsbD 3 = false → t.transfers[a] = x ∧ t.rack = s.rack) ∧
      (x.phase = .reply → x.slot = i → (w.getD 0 0).getLsbD 3 = true →
        ((w.getD 0 0).getLsbD 2 = false → t.transfers[a] = taken ∧ t.rack = s.rack) ∧
        ((w.getD 0 0).getLsbD 2 = true → t.transfers[a].phase = .idle ∧ t.transfers[a].wanted = false ∧
          (x.wanted = false → t.rack = s.rack) ∧
          (x.wanted = true → taken.reply.length < 256 →
            t.rack = { s.rack with
              discard := false,
              transaction := .sending
                ([0x0E, 0, 0, (if s.rack.discard then 1 else 0) + (if taken.truncated then 2 else 0),
                  BitVec.ofNat 8 taken.reply.length] ++ taken.reply) 0 false })))

/-! ## Metering, ratio control, additives -/

/-- The meter factor: held at the end values outside the curve, interpolated on the segment that contains Q with the
quotient truncated toward zero, 100,000 for an EMPTY curve, and always in 95,000 to 105,000 for a valid curve. -/
def Obligations.MeterFactorOfCurve : Prop :=
  ∀ q : Nat, curveFactor [] q = 100000 ∧
    ∀ points : List CurvePoint, curveValid points = true → points ≠ [] →
      95000 ≤ curveFactor points q ∧ curveFactor points q ≤ 105000 ∧
      (∀ p rest, points = p :: rest → q ≤ p.flow → curveFactor points q = p.factor) ∧
      (∀ p, points.getLast? = some p → p.flow ≤ q → curveFactor points q = p.factor) ∧
      (∀ pre lo hi post, points = pre ++ lo :: hi :: post → lo.flow ≤ q → q < hi.flow →
        (curveFactor points q : Int) =
          lo.factor + Int.tdiv (((hi.factor : Int) - lo.factor) * ((q : Int) - lo.flow))
            ((hi.flow : Int) - lo.flow))

/-- R41, R43 to R50, R52, R53, R55, R56: a meter has exactly one set of constants, and a processed sample gives the meter
and the increment set that those rules state. With residues below their divisors IV is at most 6,553,500. -/
def Obligations.DeltaConverted : Prop :=
  (∀ (s : State) (a : Fin 8) (p : StreamPos), ∃ k, s.ConvertsWith a p k ∧ ∀ k', s.ConvertsWith a p k' → k' = k) ∧
  ∀ (s : State) (a : Fin 8) (p : StreamPos) (word : MeterWord),
    s.Samples a p word (s.processMeter a p word).1 (s.processMeter a p word).2 ∧
    ∀ k, s.ConvertsWith a p k → 100 ≤ k.k10 → (s.meter a p).pulseRes < k.k10 →
      (s.processMeter a p word).2.iv ≤ 6553500

/-- R52: for a counted sample CTL is 100,000 less the product of the coefficient and the difference of T from 15.00 degrees,
in thousandths, rounded to the nearest integer with halves away from zero, and clamped to 90,000 to 110,000; T is the last
valid temperature or 1,500 when it is absent; with coefficient 0 CTL is 100,000. The examples of R52 are clauses. -/
def Obligations.TemperatureCorrection : Prop :=
  (∀ (m : Meter) (k : MeterConstants) (delta : Nat), ∃ q : Int,
    let dT := m.temp.getD 1500 - 1500
    let cor : Int := max 90000 (min 110000 (100000 - q))
    (2 * (1000 * q - k.alpha * dT)).natAbs ≤ 1000 ∧
    (2 * (1000 * q - k.alpha * dT) = 1000 → 0 < dT) ∧ (2 * (1000 * q - k.alpha * dT) = -1000 → dT < 0) ∧
    ((m.convert k delta).2.nv : Int) = ((m.convert k delta).2.gv * cor + m.netRes) / 100000 ∧
    (k.alpha = 0 → cor = 100000) ∧ (ctl k.alpha (m.temp.getD 1500) : Int) = cor) ∧
  ctl 725 3650 = 98441 ∧ ctl 1100 495 = 101106 ∧ ctl 2000 (-4000) = 110000

/-- ANSWER_WINDOW_CLOSE with a valid meter word, the first of its frame, outside an echo test, on a slot that is not the
frame's last, when no arm frame closed event follows: the other meter of the arm is not settled for the frame, or the
meter has a later slot. The meter takes the sample, its increment set goes where the arm's state routes it, then the
causes reach the arm: PULSE_IMPLAUSIBLE of a total above the limit, DEVICE_FAULT of status FAIL, and at the settlement
TEMP_LOST of an age at or above its limit; that PULSE_IMPLAUSIBLE comes before DEVICE_FAULT, and both after the increment
set, is the model's choice (log entry 9). An IDLE arm that goes FAULTED has a totalizer save queued.
With a valid valve word outside an echo test (R24, R95): status FAULT raises DEVICE_FAULT at the arm, any other status
raises nothing; that a status code other than 0 and 1 acts as OK is the model's choice (log entry 12). In a test frame the
word of a valve or an injector hands no sample over. -/
def Obligations.MeterWordProcessed : Prop :=
  (∀ (s : State) (i : Fin 64) (a : Fin 8) (p : StreamPos) (w : List Byte),
    s.WindowOpen i a (StreamPos.meterRole p) → i.val + 1 < s.trunk.slotCount → wordGood w →
    s.trunk.slots[i].toggle ≠ some ((w.getD 0 0).getLsbD 0) → s.trunk.testFrame = false →
    (s.meter a p).sample = none → byteAt w 5 ≤ 2 →
    let later := ∃ j : Fin 64, i < j ∧ j.val < s.trunk.slotCount ∧
      s.trunk.table[j] = { arm := a, role := StreamPos.meterRole p }
    let word : MeterWord := {
      total := numAt w 1 2, temp := signed16 (numAt w 3 2),
      status := if byteAt w 5 = 0 then .ok else if byteAt w 5 = 1 then .warn else .fail }
    (later ∨ ∀ q, q ≠ p → (s.meter a q).settledFrame ≠ s.trunk.frameCounter) →
    ∃ (t : State) (u : Meter) (v : Increment) (y : Arm) (implausible fault cold : List EndCause),
      exec (.answerWindowClose w) s = .next t ∧ s.Samples a p word u v ∧ s.Routes a p v y ∧
      (later → t.meter a p = u ∧ cold = []) ∧
      (¬ later → t.meter a p = { u with settledFrame := s.trunk.frameCounter } ∧
        cold = if s.config.tempHoldLimit ≤ u.age then [.tempLost] else []) ∧
      (¬ s.Seeds a p → s.AboveLimit a p word.total → implausible = [.pulseImplausible]) ∧
      (s.Seeds a p ∨ ¬ s.AboveLimit a p word.total → implausible = []) ∧
      fault = (if byteAt w 5 = 2 then [.deviceFault] else []) ∧
      y.TakesAll (t.arm a) (implausible ++ fault ++ cold) ∧
      (∀ b q, ¬ (b = a ∧ q = p) → t.meter b q = s.meter b q) ∧ (∀ b, b ≠ a → t.arm b = s.arm b) ∧
      ((s.arm a).state = .idle → y.state = .faulted → t.SavePending a) ∧
      ((s.arm a).state ≠ .idle ∨ y.state ≠ .faulted → t.store = s.store) ∧
      t = { s with meters := t.meters, arms := t.arms, trunk := t.trunk, transfers := t.transfers, rack := t.rack,
                   store := t.store }) ∧
  ∀ (s : State) (i : Fin 64) (a : Fin 8) (r : Role) (w : List Byte), s.WindowOpen i a r →
    (∀ p, r ≠ StreamPos.meterRole p) → i.val + 1 < s.trunk.slotCount → wordGood w →
    s.trunk.slots[i].toggle ≠ some ((w.getD 0 0).getLsbD 0) →
    ∃ t, exec (.answerWindowClose w) s = .next t ∧
      (r = .wildValve ∨ r = .ctrlValve → s.trunk.testFrame = false →
        (byteAt w 2 = 1 → (s.arm a).Takes (t.arm a) .deviceFault) ∧ (byteAt w 2 ≠ 1 → t.arm a = s.arm a)) ∧
      (s.trunk.testFrame = true → t.arm a = s.arm a) ∧ (∀ b, b ≠ a → t.arm b = s.arm b) ∧
      t = { s with arms := t.arms, trunk := t.trunk, transfers := t.transfers, rack := t.rack }

/-- At an arm frame closed event in RUNNING that does not close the batch, the wild set-point moves toward the smallest of
the phase rate, the wild max and the cap by at most the ramp limit, and the ratio-limited flag is set exactly when the batch
has a cap and it is smaller than both others (R88, R109); a TOP_OFF batch whose remaining is within the close-ahead ends
NORMAL, which clears the flag. The same inside ANSWER_WINDOW_CLOSE, when a meter's silent window or its valid word closes the frame
of a RUNNING arm and no shot reaches its timeout: where nothing ends the batch, the Arm Controller's step, the Ratio Controller's
pass and the pass of every additive entry are all made; where exactly one of NORMAL, UNCOMMANDED_FLOW and RATIO_FAULT ends
it, that is the end reason. Where NORMAL meets another, the order of the blocks is free (log entry 3), and nothing is
said. -/
def Obligations.RunningArmSteps : Prop :=
  (∀ (x : Arm) (c : Context), x.state = .running → x.ctx = some c → x.phase ≠ .none →
    let phase := if x.remaining ≤ c.settings.topOff * 1000 then Phase.topOff
      else if x.phase = .startLow ∧ c.settings.lowStart * 1000 ≤ x.delivered then .high
      else x.phase
    let rate := if phase = .high then c.settings.highRate else c.settings.lowRate
    let cap := c.settings.ctrlMax * (10000 - c.recipe.ctrlFraction) / c.recipe.ctrlFraction
    let target := if c.recipe.ctrlFraction = 0 then min rate c.settings.wildMax
      else min (min rate c.settings.wildMax) cap
    (phase = .topOff → x.remaining ≤ c.closeAhead → x.ClosedBy x.runningStep .normal) ∧
    (¬ (phase = .topOff ∧ x.remaining ≤ c.closeAhead) →
      x.runningStep = { x with
        phase := phase,
        wildSet := if x.wildSet < target then min target (x.wildSet + c.settings.rampLimit)
          else if target < x.wildSet then max target (x.wildSet - c.settings.rampLimit) else x.wildSet,
        ratio := { x.ratio with
          limited := decide (c.recipe.ctrlFraction ≠ 0 ∧ cap < rate ∧ cap < c.settings.wildMax) } })) ∧
  ∀ (s : State) (i : Fin 64) (a : Fin 8) (p : StreamPos) (c : Context) (w : List Byte) (x : Arm) (z : Nat),
    s.FrameCloses i a p w x z → x.state = .running → x.ctx = some c → x.phase ≠ .none →
    (∀ e ∈ x.entries, ∀ sh, e.shot = some sh → sh.age + 1 < 100) →
    let n := x.wild.net + x.ctrl.net
    let ethanol := if c.recipe.ethanolControlled then x.ctrl.net else x.wild.net
    let closes := (x.phase = .topOff ∨ x.remaining ≤ c.settings.topOff * 1000) ∧ x.remaining ≤ c.closeAhead
    let floods := x.ratio.mode = .straight ∧ 2000 < x.ctrl.net
    let outside := c.recipe.band < Int.natAbs (((ethanol * 10000 / n : Nat) : Int) - c.recipe.fraction)
    let count := if n = 0 then x.ratio.outCount else if outside then min 500 (x.ratio.outCount + 1) else 0
    let fails := x.ratio.mode = .ratio ∧ c.recipe.checkVolume * 1000 ≤ n ∧ c.recipe.persistence ≤ count
    ∃ t, exec (.answerWindowClose w) s = .next t ∧ (∀ b, b ≠ a → t.arm b = s.arm b) ∧
      (¬ closes → ¬ floods → ¬ fails →
        t.arm a = { x with
          phase := x.runningStep.phase, wildSet := x.runningStep.wildSet,
          ratio := { (x.ratioAct true (t.meter a .wild).flow).ratio with limited := x.runningStep.ratio.limited },
          entries := (t.arm a).entries, injectors := (t.arm a).injectors } ∧
        (∀ k, (t.arm a).entries[k]? = (x.passEntry k).entries[k]?) ∧
        ∀ j : Fin 4, (t.arm a).injectors[j].ref = x.injectors[j].ref ∧
          (t.arm a).injectors[j].busy = x.injectors[j].busy) ∧
      ∀ cause, (cause = .normal ∧ closes ∧ ¬ floods ∧ ¬ fails) ∨ (cause = .uncommandedFlow ∧ floods ∧ ¬ closes) ∨
          (cause = .ratioFault ∧ fails ∧ ¬ closes) → 1 < s.config.settleLimit →
        (t.arm a).state = .closing ∧ (t.arm a).endReason = some cause ∧ (t.arm a).secondary = x.secondary ∧
        (t.arm a).phase = .none ∧ (t.arm a).wildSet = 0 ∧ (t.arm a).ratio.ctrlSet = 0 ∧
        (t.arm a).ratio.limited = false ∧ (t.arm a).deliveredAtClose = x.delivered ∧
        (t.arm a).sense = (if cause.latching then cause.sense else x.sense) ∧ (t.arm a).ctx = x.ctx ∧
        (t.arm a).wild = x.wild ∧ (t.arm a).ctrl = x.ctrl

/-- R107: the trim is the deviation times the gain over 1,000, truncated toward zero and clamped to the trim limit either
way; it never has the sign opposite to D, it is 0 for a gain or a limit of 0, and for a deviation of less than 1,000 / G,
as for one of 24 mL or less with G = 40. With a gain or a limit of 0 the demand is the feedforward within its clamp, and
a pass still takes |D| into the maximum and makes the band check. -/
def Obligations.TrimComputed : Prop :=
  (∀ (d : Int) (gain limit : Nat),
    trim d gain limit = max (-(limit : Int)) (min (limit : Int) (Int.tdiv (d * gain) 1000)) ∧
    (0 ≤ d → 0 ≤ trim d gain limit) ∧ (d ≤ 0 → trim d gain limit ≤ 0) ∧ (gain = 0 ∨ limit = 0 → trim d gain limit = 0) ∧
    (d.natAbs * gain < 1000 → trim d gain limit = 0) ∧ (d.natAbs ≤ 24 → trim d 40 limit = 0)) ∧
  (∀ (x : Arm) (c : Context) (q : Nat), x.state = .running → x.ctx = some c → x.ratio.mode = .ratio →
    c.recipe.gain = 0 ∨ c.recipe.trimLimit = 0 →
    ctrlDemand c q x.wild.net x.ctrl.net =
      min c.settings.ctrlMax (q * c.recipe.ctrlFraction / (10000 - c.recipe.ctrlFraction)) ∧
    (x.ratioSetpoint c q).ratio.maxDev = min 4294967295 (max x.ratio.maxDev
      (deviation x.wild.net x.ctrl.net c.recipe.ctrlFraction).natAbs) ∧
    x.ratioAct true q = (x.ratioSetpoint c q).bandCheck c)

/-- At a pass in mode RATIO the controlled set-point moves toward the clamped demand by at most the ramp limit, stays
within 0 and the controlled max, and reaches a demand that lies within the ramp; the maximum deviation takes |D|. In mode
STRAIGHT (R110, R111) a pass leaves the controlled set-point at 0 and the rest as it is while the net controlled volume
is at most 2,000 mL; above that it raises UNCOMMANDED_FLOW, at every such pass. -/
def Obligations.ControlledSetpointMoves : Prop :=
  (∀ (x : Arm) (c : Context) (q : Nat), c.recipe.ctrlFraction < 10000 → x.ratio.ctrlSet ≤ c.settings.ctrlMax →
    let y := x.ratioSetpoint c q
    let f := c.recipe.ctrlFraction
    let d : Int := (((x.wild.net + x.ctrl.net) * f / 10000 : Nat) : Int) - x.ctrl.net
    let demand : Int := max 0 (min c.settings.ctrlMax
      (((q * f / (10000 - f) : Nat) : Int) + trim d c.recipe.gain c.recipe.trimLimit))
    y.ratio.ctrlSet ≤ c.settings.ctrlMax ∧
    ((y.ratio.ctrlSet : Int) - x.ratio.ctrlSet).natAbs ≤ c.settings.rampLimit ∧
    ((demand - x.ratio.ctrlSet).natAbs ≤ c.settings.rampLimit → (y.ratio.ctrlSet : Int) = demand) ∧
    (x.ratio.ctrlSet < demand → x.ratio.ctrlSet ≤ y.ratio.ctrlSet ∧ (y.ratio.ctrlSet : Int) ≤ demand) ∧
    (demand < x.ratio.ctrlSet → y.ratio.ctrlSet ≤ x.ratio.ctrlSet ∧ demand ≤ y.ratio.ctrlSet) ∧
    y.ratio.maxDev = min 4294967295 (max x.ratio.maxDev d.natAbs) ∧ y.state = x.state ∧ y.wildSet = x.wildSet) ∧
  ∀ (x : Arm) (received : Bool) (q : Nat), x.ratio.mode = .straight →
    let held : Arm := if x.state = .running then { x with ratio := { x.ratio with ctrlSet := 0 } } else x
    (x.ctrl.net ≤ 2000 → x.ratioAct received q = held) ∧
    (2000 < x.ctrl.net → held.Takes (x.ratioAct received q) .uncommandedFlow)

/-- R124: a DONE reply is GOOD within the tolerance, SHORT below it and LONG above it, compared on exact integers; one with
nothing measured is SHORT for a tolerance of at most 20; NO_FLOW is MISSED. The measured volume is added to the injected
so far, the count of the class rises by one and stays at 65,535. The shot after a LONG one is smaller by the excess, down
to the lower clamp. The same through ANSWER_WINDOW_CLOSE with a valid injector word outside an echo test: BUSY sets the
busy mark, any other status clears it and takes the echoed toggle as the reference (R118); a reply ends the shot of the
injector's entry (R123), and the third bad one in a row fails the entry, with ADDITIVE_FAIL under STOP and the additive
fault flag under CONTINUE (R126); any other word leaves the entries. -/
def Obligations.RepliesClassified : Prop :=
  (∀ m v t : Nat,
    (((m : Int) - v).natAbs * 100 ≤ v * t → classifyDone m v t = .good) ∧
    (v * t < ((m : Int) - v).natAbs * 100 → m < v → classifyDone m v t = .short) ∧
    (v * t < ((m : Int) - v).natAbs * 100 → v < m → classifyDone m v t = .long) ∧
    (0 < v → t ≤ 20 → classifyDone 0 v t = .short)) ∧
  (∀ (x : Arm) (j : Fin 4) (k m : Nat) (e : AdditiveEntry) (sh : Shot) (done : Bool), x.entries[k]? = some e →
    e.shot = some sh → e.item.injector = j → e.bad < 2 →
    let cls := if done then classifyDone m sh.volume e.item.tolerance else .missed
    let up := fun (c : ShotClass) (n : Nat) => if c = cls then (if n < 65535 then n + 1 else 65535) else n
    Arm.replyEntry j (if done then .done else .noFlow) sh.toggle m x k =
      x.setEntry k { e with
        shot := none, injected := e.injected + m, bad := if cls = .short ∨ cls = .missed then e.bad + 1 else 0,
        good := up .good e.good, short := up .short e.short, long := up .long e.long,
        missed := up .missed e.missed } ∧
      (done = true → cls = .long → ∀ target : Nat, 10 ≤ e.item.nominal →
        (shotVolume (e.item.nominal + ((target : Int) - (e.injected + m : Nat))) e.item.nominal : Int) =
          max 10 (min (2 * (e.item.nominal : Int))
            ((e.item.nominal : Int) + ((target : Int) - (e.injected + sh.volume : Nat)) - ((m : Int) - sh.volume))))) ∧
  ∀ (s : State) (i : Fin 64) (a : Fin 8) (j : Fin 4) (w : List Byte), s.WindowOpen i a (.inj j) →
    i.val + 1 < s.trunk.slotCount → wordGood w → s.trunk.slots[i].toggle ≠ some ((w.getD 0 0).getLsbD 0) →
    s.trunk.testFrame = false → ((s.arm a).entries.map (fun e => e.item.injector)).Nodup →
    let x := s.arm a
    let status := byteAt w 1 % 4
    let echo := (w.getD 1 0).getLsbD 2
    let measured := numAt w 2 2
    let mark : Injector := { x.injectors[j] with
      busy := decide (status = 1), ref := if status = 1 then x.injectors[j].ref else echo }
    let marked : Arm := { x with injectors := x.injectors.set j mark }
    ∃ t, exec (.answerWindowClose w) s = .next t ∧ (∀ b, b ≠ a → t.arm b = s.arm b) ∧ t.meters = s.meters ∧
      (status < 2 ∨ (∀ e ∈ x.entries, e.item.injector = j → ∀ sh, e.shot = some sh → sh.toggle ≠ echo) →
        t.arm a = marked) ∧
      ∀ (k : Nat) (e : AdditiveEntry) (sh : Shot), x.entries[k]? = some e → e.item.injector = j → e.shot = some sh →
        sh.toggle = echo → 2 ≤ status → e.bad ≤ 2 →
        let cls := if status = 2 then classifyDone measured sh.volume e.item.tolerance else .missed
        let isBad := cls = .short ∨ cls = .missed
        let up := fun (c : ShotClass) (n : Nat) => if c = cls then (if n < 65535 then n + 1 else 65535) else n
        let ended : AdditiveEntry := { e with
          shot := none, injected := e.injected + measured, bad := if isBad then e.bad + 1 else 0,
          good := up .good e.good, short := up .short e.short, long := up .long e.long, missed := up .missed e.missed }
        let fails : AdditiveEntry := { ended with state := .failed }
        (¬ isBad ∨ e.bad < 2 → t.arm a = { marked with entries := x.entries.set k ended }) ∧
        (isBad → e.bad = 2 → e.state ≠ .failed → e.item.stop = false →
          t.arm a = { marked with entries := x.entries.set k fails, additiveFault := true }) ∧
        (isBad → e.bad = 2 → e.state ≠ .failed → e.item.stop = true →
          Arm.Takes { marked with entries := x.entries.set k fails } (t.arm a) .additiveFail ∧
          (t.arm a).entries[k]? = some fails)

/-- A pass of an entry in RUNNING that crosses its injection point, with no shot outstanding and its injector not busy,
issues a shot of nominal and deficit kept between 10 and twice the nominal, with the inverse of the reference toggle, and
moves the point to the first multiple of the interval at or above the net delivered volume; with a shot outstanding, whose
age rises, or its injector busy, the point moves and no shot is issued (R121, R122); a pass that crosses no point, or whose
entry is not ACTIVE, recomputes the target alone. At a NORMAL close (R128) each
ACTIVE entry is DROPPED; with no shot outstanding, its injector not busy and a deficit of at least half a nominal it gets
a final shot of its deficit, kept between 10 and twice the nominal; any other close, or any other entry, gives none. -/
def Obligations.CrossingIssuesShot : Prop :=
  (∀ (x : Arm) (k : Nat) (e : AdditiveEntry), x.entries[k]? = some e → x.state = .running → e.state = .active →
    e.shot = none → e.nextPoint < x.wild.net + x.ctrl.net → 0 < e.item.interval →
    10 ≤ e.item.dose * e.item.interval / 100 → x.injectors[e.item.injector].busy = false →
    let n := x.wild.net + x.ctrl.net
    let nominal := e.item.dose * e.item.interval / 100
    let target := n * e.item.dose / 100000
    ∃ e2 sh, (x.passEntry k).entries[k]? = some e2 ∧ e2.shot = some sh ∧ sh.age = 0 ∧ e2.target = target ∧
      sh.toggle = !x.injectors[e.item.injector].ref ∧
      (sh.volume : Int) = max 10 (min (2 * (nominal : Int)) ((nominal : Int) + ((target : Int) - e.injected))) ∧
      n ≤ e2.nextPoint ∧ e2.nextPoint < n + e.item.interval * 1000 ∧ e.item.interval * 1000 ∣ e2.nextPoint ∧
      (x.passEntry k).injectors[e.item.injector].held = sh.toggle ∧ (x.passEntry k).state = .running) ∧
  (∀ (x : Arm) (k : Nat) (e : AdditiveEntry), x.entries[k]? = some e → x.state = .running →
    let n := x.wild.net + x.ctrl.net
    let aims : AdditiveEntry := { e with target := n * e.item.dose / 100000 }
    let aged : Shot → AdditiveEntry := fun sh => { aims with shot := some { sh with age := sh.age + 1 } }
    let goes : AdditiveEntry → Prop := fun e2 => x.passEntry k = { x with entries := x.entries.set k e2 }
    let moves : AdditiveEntry → Prop := fun e2 => ∃ point, n ≤ point ∧ point < n + e.item.interval * 1000 ∧
      e.item.interval * 1000 ∣ point ∧ goes { e2 with nextPoint := point }
    (e.state ≠ .active ∨ n ≤ e.nextPoint →
      (e.shot = none → goes aims) ∧ ∀ sh, e.shot = some sh → sh.age + 1 < 100 → goes (aged sh)) ∧
    (e.state = .active → e.nextPoint < n → 0 < e.item.interval →
      (e.shot = none → x.injectors[e.item.injector].busy = true → moves aims) ∧
      ∀ sh, e.shot = some sh → sh.age + 1 < 100 → moves (aged sh))) ∧
  ∀ (x : Arm) (cause : EndCause) (k : Nat) (e : AdditiveEntry), x.state.flowing → x.entries[k]? = some e →
    let nominal := e.item.dose * e.item.interval / 100
    let target := (x.wild.net + x.ctrl.net) * e.item.dose / 100000
    let deficit : Int := (target : Int) - e.injected
    let after : AdditiveEntry := { e with
      state := if e.state = .failed then .failed else .dropped, target := if cause = .normal then target else e.target }
    let final := cause = .normal ∧ e.state = .active ∧ e.shot = none ∧
      x.injectors[e.item.injector].busy = false ∧ (nominal : Int) ≤ 2 * deficit
    (final → 10 ≤ nominal →
      (x.raiseCause cause).entries[k]? = some { after with shot := some {
        volume := (max 10 (min (2 * (nominal : Int)) deficit)).toNat,
        toggle := !x.injectors[e.item.injector].ref, age := 0 } } ∧
      (x.raiseCause cause).injectors[e.item.injector].held = !x.injectors[e.item.injector].ref) ∧
    (¬ final → (x.raiseCause cause).entries[k]? = some after)
end

