-- ==== Sys2Proof/Laws/State.lean ====
section
/-! SUPPORT. One lemma per field of the state per update of it, and what reading a piece gives after writing one. -/

namespace Sys2Proof.Machine

variable (s : State)

/-! ### setArm: an arm replaced -/

@[simp] theorem State.setArm_powered (a : Fin 8) (x : Arm) : (s.setArm a x).powered = s.powered := rfl
@[simp] theorem State.setArm_nowUs (a : Fin 8) (x : Arm) : (s.setArm a x).nowUs = s.nowUs := rfl
@[simp] theorem State.setArm_lines (a : Fin 8) (x : Arm) : (s.setArm a x).lines = s.lines := rfl
@[simp] theorem State.setArm_rack (a : Fin 8) (x : Arm) : (s.setArm a x).rack = s.rack := rfl
@[simp] theorem State.setArm_timebase (a : Fin 8) (x : Arm) : (s.setArm a x).timebase = s.timebase := rfl
@[simp] theorem State.setArm_trunk (a : Fin 8) (x : Arm) : (s.setArm a x).trunk = s.trunk := rfl
@[simp] theorem State.setArm_meters (a : Fin 8) (x : Arm) : (s.setArm a x).meters = s.meters := rfl
@[simp] theorem State.setArm_arms (a : Fin 8) (x : Arm) : (s.setArm a x).arms = s.arms.set a x := rfl
@[simp] theorem State.setArm_windows (a : Fin 8) (x : Arm) : (s.setArm a x).windows = s.windows := rfl
@[simp] theorem State.setArm_transfers (a : Fin 8) (x : Arm) : (s.setArm a x).transfers = s.transfers := rfl
@[simp] theorem State.setArm_tables (a : Fin 8) (x : Arm) : (s.setArm a x).tables = s.tables := rfl
@[simp] theorem State.setArm_store (a : Fin 8) (x : Arm) : (s.setArm a x).store = s.store := rfl
@[simp] theorem State.setArm_nv (a : Fin 8) (x : Arm) : (s.setArm a x).nv = s.nv := rfl
@[simp] theorem State.setArm_choices (a : Fin 8) (x : Arm) : (s.setArm a x).choices = s.choices := rfl
@[simp] theorem State.setArm_pending (a : Fin 8) (x : Arm) : (s.setArm a x).pending = s.pending := rfl

/-! ### modArm: an arm changed -/

@[simp] theorem State.modArm_powered (a : Fin 8) (f : Arm → Arm) : (s.modArm a f).powered = s.powered := rfl
@[simp] theorem State.modArm_nowUs (a : Fin 8) (f : Arm → Arm) : (s.modArm a f).nowUs = s.nowUs := rfl
@[simp] theorem State.modArm_lines (a : Fin 8) (f : Arm → Arm) : (s.modArm a f).lines = s.lines := rfl
@[simp] theorem State.modArm_rack (a : Fin 8) (f : Arm → Arm) : (s.modArm a f).rack = s.rack := rfl
@[simp] theorem State.modArm_timebase (a : Fin 8) (f : Arm → Arm) : (s.modArm a f).timebase = s.timebase := rfl
@[simp] theorem State.modArm_trunk (a : Fin 8) (f : Arm → Arm) : (s.modArm a f).trunk = s.trunk := rfl
@[simp] theorem State.modArm_meters (a : Fin 8) (f : Arm → Arm) : (s.modArm a f).meters = s.meters := rfl
@[simp] theorem State.modArm_arms (a : Fin 8) (f : Arm → Arm) : (s.modArm a f).arms = s.arms.set a (f (s.arm a)) := rfl
@[simp] theorem State.modArm_windows (a : Fin 8) (f : Arm → Arm) : (s.modArm a f).windows = s.windows := rfl
@[simp] theorem State.modArm_transfers (a : Fin 8) (f : Arm → Arm) : (s.modArm a f).transfers = s.transfers := rfl
@[simp] theorem State.modArm_tables (a : Fin 8) (f : Arm → Arm) : (s.modArm a f).tables = s.tables := rfl
@[simp] theorem State.modArm_store (a : Fin 8) (f : Arm → Arm) : (s.modArm a f).store = s.store := rfl
@[simp] theorem State.modArm_nv (a : Fin 8) (f : Arm → Arm) : (s.modArm a f).nv = s.nv := rfl
@[simp] theorem State.modArm_choices (a : Fin 8) (f : Arm → Arm) : (s.modArm a f).choices = s.choices := rfl
@[simp] theorem State.modArm_pending (a : Fin 8) (f : Arm → Arm) : (s.modArm a f).pending = s.pending := rfl

/-! ### modRack: the rack link changed -/

@[simp] theorem State.modRack_powered (f : RackLink → RackLink) : (s.modRack f).powered = s.powered := rfl
@[simp] theorem State.modRack_nowUs (f : RackLink → RackLink) : (s.modRack f).nowUs = s.nowUs := rfl
@[simp] theorem State.modRack_lines (f : RackLink → RackLink) : (s.modRack f).lines = s.lines := rfl
@[simp] theorem State.modRack_rack (f : RackLink → RackLink) : (s.modRack f).rack = f s.rack := rfl
@[simp] theorem State.modRack_timebase (f : RackLink → RackLink) : (s.modRack f).timebase = s.timebase := rfl
@[simp] theorem State.modRack_trunk (f : RackLink → RackLink) : (s.modRack f).trunk = s.trunk := rfl
@[simp] theorem State.modRack_meters (f : RackLink → RackLink) : (s.modRack f).meters = s.meters := rfl
@[simp] theorem State.modRack_arms (f : RackLink → RackLink) : (s.modRack f).arms = s.arms := rfl
@[simp] theorem State.modRack_windows (f : RackLink → RackLink) : (s.modRack f).windows = s.windows := rfl
@[simp] theorem State.modRack_transfers (f : RackLink → RackLink) : (s.modRack f).transfers = s.transfers := rfl
@[simp] theorem State.modRack_tables (f : RackLink → RackLink) : (s.modRack f).tables = s.tables := rfl
@[simp] theorem State.modRack_store (f : RackLink → RackLink) : (s.modRack f).store = s.store := rfl
@[simp] theorem State.modRack_nv (f : RackLink → RackLink) : (s.modRack f).nv = s.nv := rfl
@[simp] theorem State.modRack_choices (f : RackLink → RackLink) : (s.modRack f).choices = s.choices := rfl
@[simp] theorem State.modRack_pending (f : RackLink → RackLink) : (s.modRack f).pending = s.pending := rfl

/-! ### modTrunk: the trunk changed -/

@[simp] theorem State.modTrunk_powered (f : Trunk → Trunk) : (s.modTrunk f).powered = s.powered := rfl
@[simp] theorem State.modTrunk_nowUs (f : Trunk → Trunk) : (s.modTrunk f).nowUs = s.nowUs := rfl
@[simp] theorem State.modTrunk_lines (f : Trunk → Trunk) : (s.modTrunk f).lines = s.lines := rfl
@[simp] theorem State.modTrunk_rack (f : Trunk → Trunk) : (s.modTrunk f).rack = s.rack := rfl
@[simp] theorem State.modTrunk_timebase (f : Trunk → Trunk) : (s.modTrunk f).timebase = s.timebase := rfl
@[simp] theorem State.modTrunk_trunk (f : Trunk → Trunk) : (s.modTrunk f).trunk = f s.trunk := rfl
@[simp] theorem State.modTrunk_meters (f : Trunk → Trunk) : (s.modTrunk f).meters = s.meters := rfl
@[simp] theorem State.modTrunk_arms (f : Trunk → Trunk) : (s.modTrunk f).arms = s.arms := rfl
@[simp] theorem State.modTrunk_windows (f : Trunk → Trunk) : (s.modTrunk f).windows = s.windows := rfl
@[simp] theorem State.modTrunk_transfers (f : Trunk → Trunk) : (s.modTrunk f).transfers = s.transfers := rfl
@[simp] theorem State.modTrunk_tables (f : Trunk → Trunk) : (s.modTrunk f).tables = s.tables := rfl
@[simp] theorem State.modTrunk_store (f : Trunk → Trunk) : (s.modTrunk f).store = s.store := rfl
@[simp] theorem State.modTrunk_nv (f : Trunk → Trunk) : (s.modTrunk f).nv = s.nv := rfl
@[simp] theorem State.modTrunk_choices (f : Trunk → Trunk) : (s.modTrunk f).choices = s.choices := rfl
@[simp] theorem State.modTrunk_pending (f : Trunk → Trunk) : (s.modTrunk f).pending = s.pending := rfl

/-! ### modStore: the store controls changed -/

@[simp] theorem State.modStore_powered (f : StoreCtl → StoreCtl) : (s.modStore f).powered = s.powered := rfl
@[simp] theorem State.modStore_nowUs (f : StoreCtl → StoreCtl) : (s.modStore f).nowUs = s.nowUs := rfl
@[simp] theorem State.modStore_lines (f : StoreCtl → StoreCtl) : (s.modStore f).lines = s.lines := rfl
@[simp] theorem State.modStore_rack (f : StoreCtl → StoreCtl) : (s.modStore f).rack = s.rack := rfl
@[simp] theorem State.modStore_timebase (f : StoreCtl → StoreCtl) : (s.modStore f).timebase = s.timebase := rfl
@[simp] theorem State.modStore_trunk (f : StoreCtl → StoreCtl) : (s.modStore f).trunk = s.trunk := rfl
@[simp] theorem State.modStore_meters (f : StoreCtl → StoreCtl) : (s.modStore f).meters = s.meters := rfl
@[simp] theorem State.modStore_arms (f : StoreCtl → StoreCtl) : (s.modStore f).arms = s.arms := rfl
@[simp] theorem State.modStore_windows (f : StoreCtl → StoreCtl) : (s.modStore f).windows = s.windows := rfl
@[simp] theorem State.modStore_transfers (f : StoreCtl → StoreCtl) : (s.modStore f).transfers = s.transfers := rfl
@[simp] theorem State.modStore_tables (f : StoreCtl → StoreCtl) : (s.modStore f).tables = s.tables := rfl
@[simp] theorem State.modStore_store (f : StoreCtl → StoreCtl) : (s.modStore f).store = f s.store := rfl
@[simp] theorem State.modStore_nv (f : StoreCtl → StoreCtl) : (s.modStore f).nv = s.nv := rfl
@[simp] theorem State.modStore_choices (f : StoreCtl → StoreCtl) : (s.modStore f).choices = s.choices := rfl
@[simp] theorem State.modStore_pending (f : StoreCtl → StoreCtl) : (s.modStore f).pending = s.pending := rfl

/-! ### noteDevice: the device sense code set -/

@[simp] theorem State.noteDevice_powered (c : Sense) : (s.noteDevice c).powered = s.powered := rfl
@[simp] theorem State.noteDevice_nowUs (c : Sense) : (s.noteDevice c).nowUs = s.nowUs := rfl
@[simp] theorem State.noteDevice_lines (c : Sense) : (s.noteDevice c).lines = s.lines := rfl
@[simp] theorem State.noteDevice_rack (c : Sense) : (s.noteDevice c).rack = { s.rack with deviceSense := c } := rfl
@[simp] theorem State.noteDevice_timebase (c : Sense) : (s.noteDevice c).timebase = s.timebase := rfl
@[simp] theorem State.noteDevice_trunk (c : Sense) : (s.noteDevice c).trunk = s.trunk := rfl
@[simp] theorem State.noteDevice_meters (c : Sense) : (s.noteDevice c).meters = s.meters := rfl
@[simp] theorem State.noteDevice_arms (c : Sense) : (s.noteDevice c).arms = s.arms := rfl
@[simp] theorem State.noteDevice_windows (c : Sense) : (s.noteDevice c).windows = s.windows := rfl
@[simp] theorem State.noteDevice_transfers (c : Sense) : (s.noteDevice c).transfers = s.transfers := rfl
@[simp] theorem State.noteDevice_tables (c : Sense) : (s.noteDevice c).tables = s.tables := rfl
@[simp] theorem State.noteDevice_store (c : Sense) : (s.noteDevice c).store = s.store := rfl
@[simp] theorem State.noteDevice_nv (c : Sense) : (s.noteDevice c).nv = s.nv := rfl
@[simp] theorem State.noteDevice_choices (c : Sense) : (s.noteDevice c).choices = s.choices := rfl
@[simp] theorem State.noteDevice_pending (c : Sense) : (s.noteDevice c).pending = s.pending := rfl

/-! ### setTransfer: a transfer replaced -/

@[simp] theorem State.setTransfer_powered (a : Fin 8) (t : Transfer) : (s.setTransfer a t).powered = s.powered := rfl
@[simp] theorem State.setTransfer_nowUs (a : Fin 8) (t : Transfer) : (s.setTransfer a t).nowUs = s.nowUs := rfl
@[simp] theorem State.setTransfer_lines (a : Fin 8) (t : Transfer) : (s.setTransfer a t).lines = s.lines := rfl
@[simp] theorem State.setTransfer_rack (a : Fin 8) (t : Transfer) : (s.setTransfer a t).rack = s.rack := rfl
@[simp] theorem State.setTransfer_timebase (a : Fin 8) (t : Transfer) : (s.setTransfer a t).timebase = s.timebase := rfl
@[simp] theorem State.setTransfer_trunk (a : Fin 8) (t : Transfer) : (s.setTransfer a t).trunk = s.trunk := rfl
@[simp] theorem State.setTransfer_meters (a : Fin 8) (t : Transfer) : (s.setTransfer a t).meters = s.meters := rfl
@[simp] theorem State.setTransfer_arms (a : Fin 8) (t : Transfer) : (s.setTransfer a t).arms = s.arms := rfl
@[simp] theorem State.setTransfer_windows (a : Fin 8) (t : Transfer) : (s.setTransfer a t).windows = s.windows := rfl
@[simp] theorem State.setTransfer_transfers (a : Fin 8) (t : Transfer) : (s.setTransfer a t).transfers = s.transfers.set a t := rfl
@[simp] theorem State.setTransfer_tables (a : Fin 8) (t : Transfer) : (s.setTransfer a t).tables = s.tables := rfl
@[simp] theorem State.setTransfer_store (a : Fin 8) (t : Transfer) : (s.setTransfer a t).store = s.store := rfl
@[simp] theorem State.setTransfer_nv (a : Fin 8) (t : Transfer) : (s.setTransfer a t).nv = s.nv := rfl
@[simp] theorem State.setTransfer_choices (a : Fin 8) (t : Transfer) : (s.setTransfer a t).choices = s.choices := rfl
@[simp] theorem State.setTransfer_pending (a : Fin 8) (t : Transfer) : (s.setTransfer a t).pending = s.pending := rfl

/-! ### setWindow: a start window replaced -/

@[simp] theorem State.setWindow_powered (l : Fin 4) (w : StartWindow) : (s.setWindow l w).powered = s.powered := rfl
@[simp] theorem State.setWindow_nowUs (l : Fin 4) (w : StartWindow) : (s.setWindow l w).nowUs = s.nowUs := rfl
@[simp] theorem State.setWindow_lines (l : Fin 4) (w : StartWindow) : (s.setWindow l w).lines = s.lines := rfl
@[simp] theorem State.setWindow_rack (l : Fin 4) (w : StartWindow) : (s.setWindow l w).rack = s.rack := rfl
@[simp] theorem State.setWindow_timebase (l : Fin 4) (w : StartWindow) : (s.setWindow l w).timebase = s.timebase := rfl
@[simp] theorem State.setWindow_trunk (l : Fin 4) (w : StartWindow) : (s.setWindow l w).trunk = s.trunk := rfl
@[simp] theorem State.setWindow_meters (l : Fin 4) (w : StartWindow) : (s.setWindow l w).meters = s.meters := rfl
@[simp] theorem State.setWindow_arms (l : Fin 4) (w : StartWindow) : (s.setWindow l w).arms = s.arms := rfl
@[simp] theorem State.setWindow_windows (l : Fin 4) (w : StartWindow) : (s.setWindow l w).windows = s.windows.set l w := rfl
@[simp] theorem State.setWindow_transfers (l : Fin 4) (w : StartWindow) : (s.setWindow l w).transfers = s.transfers := rfl
@[simp] theorem State.setWindow_tables (l : Fin 4) (w : StartWindow) : (s.setWindow l w).tables = s.tables := rfl
@[simp] theorem State.setWindow_store (l : Fin 4) (w : StartWindow) : (s.setWindow l w).store = s.store := rfl
@[simp] theorem State.setWindow_nv (l : Fin 4) (w : StartWindow) : (s.setWindow l w).nv = s.nv := rfl
@[simp] theorem State.setWindow_choices (l : Fin 4) (w : StartWindow) : (s.setWindow l w).choices = s.choices := rfl
@[simp] theorem State.setWindow_pending (l : Fin 4) (w : StartWindow) : (s.setWindow l w).pending = s.pending := rfl

/-! ### raiseMetro: the metrological counter raised -/

@[simp] theorem State.raiseMetro_powered : (s.raiseMetro).powered = s.powered := rfl
@[simp] theorem State.raiseMetro_nowUs : (s.raiseMetro).nowUs = s.nowUs := rfl
@[simp] theorem State.raiseMetro_lines : (s.raiseMetro).lines = s.lines := rfl
@[simp] theorem State.raiseMetro_rack : (s.raiseMetro).rack = s.rack := rfl
@[simp] theorem State.raiseMetro_timebase : (s.raiseMetro).timebase = s.timebase := rfl
@[simp] theorem State.raiseMetro_trunk : (s.raiseMetro).trunk = s.trunk := rfl
@[simp] theorem State.raiseMetro_meters : (s.raiseMetro).meters = s.meters := rfl
@[simp] theorem State.raiseMetro_arms : (s.raiseMetro).arms = s.arms := rfl
@[simp] theorem State.raiseMetro_windows : (s.raiseMetro).windows = s.windows := rfl
@[simp] theorem State.raiseMetro_transfers : (s.raiseMetro).transfers = s.transfers := rfl
@[simp] theorem State.raiseMetro_tables : (s.raiseMetro).tables = s.tables := rfl
@[simp] theorem State.raiseMetro_store : (s.raiseMetro).store = s.store := rfl
@[simp] theorem State.raiseMetro_nv : (s.raiseMetro).nv = { s.nv with metroCounter := satSucc 65535 s.nv.metroCounter } := rfl
@[simp] theorem State.raiseMetro_choices : (s.raiseMetro).choices = s.choices := rfl
@[simp] theorem State.raiseMetro_pending : (s.raiseMetro).pending = s.pending := rfl

/-! ### setMeter and modMeter: a meter replaced or changed -/

@[simp] theorem State.setMeter_powered (a : Fin 8) (p : StreamPos) (m : Meter) : (s.setMeter a p m).powered = s.powered := by
  cases p <;> rfl
@[simp] theorem State.setMeter_nowUs (a : Fin 8) (p : StreamPos) (m : Meter) : (s.setMeter a p m).nowUs = s.nowUs := by
  cases p <;> rfl
@[simp] theorem State.setMeter_lines (a : Fin 8) (p : StreamPos) (m : Meter) : (s.setMeter a p m).lines = s.lines := by
  cases p <;> rfl
@[simp] theorem State.setMeter_rack (a : Fin 8) (p : StreamPos) (m : Meter) : (s.setMeter a p m).rack = s.rack := by
  cases p <;> rfl
@[simp] theorem State.setMeter_timebase (a : Fin 8) (p : StreamPos) (m : Meter) : (s.setMeter a p m).timebase = s.timebase := by
  cases p <;> rfl
@[simp] theorem State.setMeter_trunk (a : Fin 8) (p : StreamPos) (m : Meter) : (s.setMeter a p m).trunk = s.trunk := by
  cases p <;> rfl
@[simp] theorem State.setMeter_arms (a : Fin 8) (p : StreamPos) (m : Meter) : (s.setMeter a p m).arms = s.arms := by
  cases p <;> rfl
@[simp] theorem State.setMeter_windows (a : Fin 8) (p : StreamPos) (m : Meter) : (s.setMeter a p m).windows = s.windows := by
  cases p <;> rfl
@[simp] theorem State.setMeter_transfers (a : Fin 8) (p : StreamPos) (m : Meter) : (s.setMeter a p m).transfers = s.transfers := by
  cases p <;> rfl
@[simp] theorem State.setMeter_tables (a : Fin 8) (p : StreamPos) (m : Meter) : (s.setMeter a p m).tables = s.tables := by
  cases p <;> rfl
@[simp] theorem State.setMeter_store (a : Fin 8) (p : StreamPos) (m : Meter) : (s.setMeter a p m).store = s.store := by
  cases p <;> rfl
@[simp] theorem State.setMeter_nv (a : Fin 8) (p : StreamPos) (m : Meter) : (s.setMeter a p m).nv = s.nv := by
  cases p <;> rfl
@[simp] theorem State.setMeter_choices (a : Fin 8) (p : StreamPos) (m : Meter) : (s.setMeter a p m).choices = s.choices := by
  cases p <;> rfl
@[simp] theorem State.setMeter_pending (a : Fin 8) (p : StreamPos) (m : Meter) : (s.setMeter a p m).pending = s.pending := by
  cases p <;> rfl
@[simp] theorem State.modMeter_powered (a : Fin 8) (p : StreamPos) (f : Meter → Meter) :
    (s.modMeter a p f).powered = s.powered := State.setMeter_powered s a p _
@[simp] theorem State.modMeter_nowUs (a : Fin 8) (p : StreamPos) (f : Meter → Meter) :
    (s.modMeter a p f).nowUs = s.nowUs := State.setMeter_nowUs s a p _
@[simp] theorem State.modMeter_lines (a : Fin 8) (p : StreamPos) (f : Meter → Meter) :
    (s.modMeter a p f).lines = s.lines := State.setMeter_lines s a p _
@[simp] theorem State.modMeter_rack (a : Fin 8) (p : StreamPos) (f : Meter → Meter) :
    (s.modMeter a p f).rack = s.rack := State.setMeter_rack s a p _
@[simp] theorem State.modMeter_timebase (a : Fin 8) (p : StreamPos) (f : Meter → Meter) :
    (s.modMeter a p f).timebase = s.timebase := State.setMeter_timebase s a p _
@[simp] theorem State.modMeter_trunk (a : Fin 8) (p : StreamPos) (f : Meter → Meter) :
    (s.modMeter a p f).trunk = s.trunk := State.setMeter_trunk s a p _
@[simp] theorem State.modMeter_arms (a : Fin 8) (p : StreamPos) (f : Meter → Meter) :
    (s.modMeter a p f).arms = s.arms := State.setMeter_arms s a p _
@[simp] theorem State.modMeter_windows (a : Fin 8) (p : StreamPos) (f : Meter → Meter) :
    (s.modMeter a p f).windows = s.windows := State.setMeter_windows s a p _
@[simp] theorem State.modMeter_transfers (a : Fin 8) (p : StreamPos) (f : Meter → Meter) :
    (s.modMeter a p f).transfers = s.transfers := State.setMeter_transfers s a p _
@[simp] theorem State.modMeter_tables (a : Fin 8) (p : StreamPos) (f : Meter → Meter) :
    (s.modMeter a p f).tables = s.tables := State.setMeter_tables s a p _
@[simp] theorem State.modMeter_store (a : Fin 8) (p : StreamPos) (f : Meter → Meter) :
    (s.modMeter a p f).store = s.store := State.setMeter_store s a p _
@[simp] theorem State.modMeter_nv (a : Fin 8) (p : StreamPos) (f : Meter → Meter) :
    (s.modMeter a p f).nv = s.nv := State.setMeter_nv s a p _
@[simp] theorem State.modMeter_choices (a : Fin 8) (p : StreamPos) (f : Meter → Meter) :
    (s.modMeter a p f).choices = s.choices := State.setMeter_choices s a p _
@[simp] theorem State.modMeter_pending (a : Fin 8) (p : StreamPos) (f : Meter → Meter) :
    (s.modMeter a p f).pending = s.pending := State.setMeter_pending s a p _

/-! ### Reading after writing -/

/-- A vector read at another index than the one set. -/
theorem get_set_ne {α : Type} {n : Nat} (v : Vector α n) (i j : Fin n) (x : α) (h : i ≠ j) : (v.set i x)[j] = v[j] := by
  have : (i : Nat) ≠ j := fun e => h (Fin.ext e)
  simp [this]

/-- A vector read at the index set. -/
theorem get_set_self {α : Type} {n : Nat} (v : Vector α n) (i : Fin n) (x : α) : (v.set i x)[i] = x := by simp

@[simp] theorem State.arm_setArm_self (a : Fin 8) (x : Arm) : (s.setArm a x).arm a = x := get_set_self _ _ _

theorem State.arm_setArm_ne {a b : Fin 8} (x : Arm) (h : a ≠ b) : (s.setArm a x).arm b = s.arm b :=
  get_set_ne _ _ _ _ h

@[simp] theorem State.arm_modArm_self (a : Fin 8) (f : Arm → Arm) : (s.modArm a f).arm a = f (s.arm a) :=
  s.arm_setArm_self a _

theorem State.arm_modArm_ne {a b : Fin 8} (f : Arm → Arm) (h : a ≠ b) : (s.modArm a f).arm b = s.arm b :=
  s.arm_setArm_ne _ h

/-- An arm read after one is changed. -/
theorem State.arm_modArm (a b : Fin 8) (f : Arm → Arm) :
    (s.modArm a f).arm b = if a = b then f (s.arm b) else s.arm b := by
  split
  · next h => subst h; exact s.arm_modArm_self a f
  · next h => exact s.arm_modArm_ne f h

@[simp] theorem State.meter_setMeter_self (a : Fin 8) (p : StreamPos) (m : Meter) : (s.setMeter a p m).meter a p = m := by
  cases p <;> simp [State.setMeter, State.meter]

/-- A meter read after another one is replaced. -/
theorem State.meter_setMeter_ne {a b : Fin 8} {p q : StreamPos} (m : Meter) (h : ¬(a = b ∧ p = q)) :
    (s.setMeter a p m).meter b q = s.meter b q := by
  by_cases e : a = b
  · subst e
    cases p <;> cases q <;> simp_all [State.setMeter, State.meter]
  · have e' : (a : Nat) ≠ b := fun x => e (Fin.ext x)
    cases p <;> cases q <;> simp [State.setMeter, State.meter, e']

/-- A meter read after one is replaced. -/
theorem State.meter_setMeter (a b : Fin 8) (p q : StreamPos) (m : Meter) :
    (s.setMeter a p m).meter b q = if a = b ∧ p = q then m else s.meter b q := by
  split
  · next h => obtain ⟨rfl, rfl⟩ := h; exact s.meter_setMeter_self a p m
  · next h => exact s.meter_setMeter_ne m h


@[simp] theorem State.setArm_meter (a : Fin 8) (x : Arm) (b : Fin 8) (q : StreamPos) : (s.setArm a x).meter b q = s.meter b q := by
  cases q <;> rfl
@[simp] theorem State.modArm_meter (a : Fin 8) (f : Arm → Arm) (b : Fin 8) (q : StreamPos) : (s.modArm a f).meter b q = s.meter b q := by
  cases q <;> rfl
@[simp] theorem State.modRack_arm (f : RackLink → RackLink) (b : Fin 8) : (s.modRack f).arm b = s.arm b := rfl
@[simp] theorem State.modRack_meter (f : RackLink → RackLink) (b : Fin 8) (q : StreamPos) : (s.modRack f).meter b q = s.meter b q := by
  cases q <;> rfl
@[simp] theorem State.modTrunk_arm (f : Trunk → Trunk) (b : Fin 8) : (s.modTrunk f).arm b = s.arm b := rfl
@[simp] theorem State.modTrunk_meter (f : Trunk → Trunk) (b : Fin 8) (q : StreamPos) : (s.modTrunk f).meter b q = s.meter b q := by
  cases q <;> rfl
@[simp] theorem State.modStore_arm (f : StoreCtl → StoreCtl) (b : Fin 8) : (s.modStore f).arm b = s.arm b := rfl
@[simp] theorem State.modStore_meter (f : StoreCtl → StoreCtl) (b : Fin 8) (q : StreamPos) : (s.modStore f).meter b q = s.meter b q := by
  cases q <;> rfl
@[simp] theorem State.noteDevice_arm (c : Sense) (b : Fin 8) : (s.noteDevice c).arm b = s.arm b := rfl
@[simp] theorem State.noteDevice_meter (c : Sense) (b : Fin 8) (q : StreamPos) : (s.noteDevice c).meter b q = s.meter b q := by
  cases q <;> rfl
@[simp] theorem State.setTransfer_arm (a : Fin 8) (t : Transfer) (b : Fin 8) : (s.setTransfer a t).arm b = s.arm b := rfl
@[simp] theorem State.setTransfer_meter (a : Fin 8) (t : Transfer) (b : Fin 8) (q : StreamPos) : (s.setTransfer a t).meter b q = s.meter b q := by
  cases q <;> rfl
@[simp] theorem State.setWindow_arm (l : Fin 4) (w : StartWindow) (b : Fin 8) : (s.setWindow l w).arm b = s.arm b := rfl
@[simp] theorem State.setWindow_meter (l : Fin 4) (w : StartWindow) (b : Fin 8) (q : StreamPos) : (s.setWindow l w).meter b q = s.meter b q := by
  cases q <;> rfl
@[simp] theorem State.raiseMetro_arm (b : Fin 8) : (s.raiseMetro).arm b = s.arm b := rfl
@[simp] theorem State.raiseMetro_meter (b : Fin 8) (q : StreamPos) : (s.raiseMetro).meter b q = s.meter b q := by
  cases q <;> rfl
@[simp] theorem State.setMeter_arm (a : Fin 8) (p : StreamPos) (m : Meter) (b : Fin 8) :
    (s.setMeter a p m).arm b = s.arm b := by
  cases p <;> rfl
@[simp] theorem State.modMeter_arm (a : Fin 8) (p : StreamPos) (f : Meter → Meter) (b : Fin 8) :
    (s.modMeter a p f).arm b = s.arm b := s.setMeter_arm a p _ b



end Sys2Proof.Machine
end

