-- ==== Sys2Proof/Laws/ArmMoves.lean ====
section
/-! SUPPORT. Says once what a command can do to an arm: every change of an arm is a chain of the moves listed in
`ArmMove`, each with the arm state in which it is made. -/

namespace Sys2Proof.Machine

/-- One change of one arm by one of its blocks, with the arm state in which it happens. -/
inductive ArmMove : Arm → Arm → Prop
  | cause (x : Arm) (c : EndCause) : ArmMove x (x.raiseCause c)
  | note (x : Arm) (c : Sense) : ArmMove x (x.note c)
  | account (x : Arm) (p : StreamPos) (i : Increment) (h : x.isOpen = true) :
      ArmMove x (x.setAccount p ((x.account p).add i))
  | accrue (x : Arm) (iv : Nat) (h : x.isOpen = false) : ArmMove x (x.accrue iv)
  | fault (x : Arm) (h : x.state = .idle) : ArmMove x { x with state := .faulted, sense := .unauthorizedFlow }
  | word (x : Arm) (j : Fin 4) (st : InjectorStatus) (echo : Bool) (m : Nat) : ArmMove x (x.injectorWord j st echo m)
  | running (x : Arm) (h : x.state = .running) : ArmMove x x.runningStep
  | ratio (x : Arm) (received : Bool) (q : Nat) : ArmMove x (x.ratioAct received q)
  | band (x : Arm) (c : Context) (h : x.state = .running) : ArmMove x (x.bandCheck c)
  | pass (x : Arm) : ArmMove x x.additivePass
  | age (x : Arm) (k : Nat) : ArmMove x (x.ageShot k)
  | hold (x : Arm) (h : x.state = .running) : ArmMove x x.enterHolding
  | held (x : Arm) (h : x.state = .holding) : ArmMove x { x with state := .held }
  | resume (x : Arm) (h : x.state = .held) : ArmMove x x.resumed
  | tick (x : Arm) (h : x.state = .holding ∨ x.state = .held) : ArmMove x x.holdTick
  | zero (x : Arm) (n : Nat) : ArmMove x { x with zeroCount := n }
  | settleAge (x : Arm) (h : x.state = .closing) : ArmMove x { x with settleAge := x.settleAge + 1 }
  | leak (x : Arm) (h : x.state = .closing) : ArmMove x x.recordLeak
  | finalize (x : Arm) (a : Fin 8) (c : Context) (r : CurrentRecord) (n : Nat) (h : x.state = .closing)
      (hc : x.ctx = some c) (hr : x.current = some r) : ArmMove x (x.finalized a c r n)
  | authorize (x : Arm) (c : Context) (e : ArmEntry) (w k : Nat) (h : x.state = .idle) :
      ArmMove x (x.authorized c e w k)
  | withdraw (x : Arm) (h : x.state = .authorized) : ArmMove x x.withdrawn
  | pend (x : Arm) (h : x.state = .authorized) : ArmMove x { x with state := .startPending }
  | unpend (x : Arm) (h : x.state = .startPending) : ArmMove x { x with state := .authorized }
  | returned (x : Arm) (c : Sense) (h : x.state = .startPending) : ArmMove x (x.returned c)
  | start (x : Arm) (n : Nat) (h : x.state = .authorized ∨ x.state = .startPending) : ArmMove x (x.enterRunning n)
  | clear (x : Arm) (h : x.state = .faulted) : ArmMove x x.faultCleared
  | reset (x : Arm) : ArmMove x Arm.afterReset

/-- Every arm goes from its value in one state to its value in another by moves. -/
def ArmsGo (s t : State) : Prop := ∀ b, Relation.ReflTransGen ArmMove (s.arm b) (t.arm b)

theorem ArmsGo.refl (s : State) : ArmsGo s s := fun _ => .refl

theorem ArmsGo.trans {s t u : State} (h : ArmsGo s t) (k : ArmsGo t u) : ArmsGo s u := fun b => (h b).trans (k b)

/-- A change that leaves every arm as it was. -/
theorem ArmsGo.of_arms {s t : State} (h : t.arms = s.arms) : ArmsGo s t := fun b => by
  simp [State.arm, h, Relation.ReflTransGen.refl]

/-- A change that leaves every arm as it was comes first. -/
theorem ArmsGo.after {s t u : State} (k : ArmsGo t u) (h : t.arms = s.arms) : ArmsGo s u := (ArmsGo.of_arms h).trans k

/-- A change that leaves every arm as it was comes last. -/
theorem ArmsGo.before {s t u : State} (k : ArmsGo s t) (h : u.arms = t.arms) : ArmsGo s u := k.trans (.of_arms h)

/-- A choice between two changes. -/
theorem ArmsGo.ite {s t u : State} {c : Prop} [Decidable c] (h : c → ArmsGo s t) (k : ¬c → ArmsGo s u) :
    ArmsGo s (if c then t else u) := by
  split
  · next e => exact h e
  · next e => exact k e

/-- One arm changed by one move. -/
theorem ArmsGo.modArm (s : State) (a : Fin 8) (f : Arm → Arm) (h : ArmMove (s.arm a) (f (s.arm a))) :
    ArmsGo s (s.modArm a f) := fun b => by
  rw [State.arm_modArm]
  split
  · next e => subst e; exact .single h
  · exact .refl

/-- A list of changes, each by moves. -/
theorem ArmsGo.foldl {β : Type} (f : State → β → State) (h : ∀ s x, ArmsGo s (f s x)) (l : List β) (s : State) :
    ArmsGo s (l.foldl f s) := by
  induction l generalizing s with
  | nil => exact .refl s
  | cons x l ih => exact (h s x).trans (ih _)

/-- A property of arms that every move keeps is kept along moves. -/
theorem ArmsGo.keeps {P : Arm → Prop} (hP : ∀ x y, ArmMove x y → P x → P y) {s t : State} (h : ArmsGo s t) (b : Fin 8)
    (hb : P (s.arm b)) : P (t.arm b) := by
  generalize hy : t.arm b = y
  have k : Relation.ReflTransGen ArmMove (s.arm b) y := hy ▸ h b
  clear hy
  induction k with
  | refl => exact hb
  | tail _ m ih => exact hP _ _ m ih

/-! ## Operations that touch no arm -/

@[simp] theorem State.joinQueue_arms (s : State) (op : QueuedOp) : (s.joinQueue op).arms = s.arms := by
  unfold State.joinQueue; split <;> rfl

@[simp] theorem State.requestSave_arms (s : State) (a : Fin 8) : (s.requestSave a).arms = s.arms := by
  unfold State.requestSave; split <;> simp

@[simp] theorem State.beginNext_arms (s : State) : s.beginNext.arms = s.arms := by
  unfold State.beginNext; split <;> rfl

@[simp] theorem State.leaveWindow_arms (s : State) (a : Fin 8) : (s.leaveWindow a).arms = s.arms := by
  unfold State.leaveWindow; split <;> rfl

@[simp] theorem State.leaveWindow_arm (s : State) (a b : Fin 8) : (s.leaveWindow a).arm b = s.arm b := by
  simp [State.arm]

theorem ArmsGo.leaveWindow (s : State) (a : Fin 8) : ArmsGo s (s.leaveWindow a) := .of_arms (by simp)

theorem ArmsGo.requestSave (s : State) (a : Fin 8) : ArmsGo s (s.requestSave a) := .of_arms (by simp)

/-! ## The batch -/

theorem ArmsGo.cause (s : State) (a : Fin 8) (c : EndCause) : ArmsGo s (s.modArm a (fun x => x.raiseCause c)) :=
  .modArm s a _ (.cause _ c)

theorem ArmsGo.note (s : State) (a : Fin 8) (c : Sense) : ArmsGo s (s.modArm a (fun x => x.note c)) :=
  .modArm s a _ (.note _ c)

theorem ArmsGo.returnPending (s : State) (a : Fin 8) (c : Sense) (h : (s.arm a).state = .startPending) :
    ArmsGo s (s.returnPending a c) :=
  (ArmsGo.leaveWindow s a).trans (.modArm _ a _ (.returned _ c (by simpa using h)))

theorem ArmsGo.expirePending (s : State) (a : Fin 8) : ArmsGo s (s.expirePending a) := by
  unfold State.expirePending
  split
  · next h =>
    split
    · exact .refl s
    · split
      · exact .modArm s a _ (.start _ _ (.inr h))
      · exact .modArm s a _ (.returned _ _ h)
  · exact .refl s

theorem ArmsGo.expireWindow (s : State) (l : Fin 4) : ArmsGo s (s.expireWindow l) :=
  (ArmsGo.foldl _ ArmsGo.expirePending _ s).trans (.of_arms rfl)

theorem ArmsGo.tickWindow (s : State) (l : Fin 4) : ArmsGo s (s.tickWindow l) := by
  unfold State.tickWindow
  split
  · exact .expireWindow s l
  · split
    · exact .of_arms rfl
    · exact .refl s

theorem ArmsGo.tryResume (s : State) (a : Fin 8) : ArmsGo s (s.tryResume a) := by
  unfold State.tryResume
  split
  · next h => exact .modArm s a _ (.resume _ h.1)
  · exact .refl s

theorem ArmsGo.finalize (s : State) (a : Fin 8) (h : (s.arm a).state = .closing) : ArmsGo s (s.finalize a) := by
  unfold State.finalize
  split
  · next c r hc hr => exact (ArmsGo.modArm s a _ (.finalize _ a c r _ h hc hr)).trans (.requestSave _ a)
  · exact .refl s

theorem ArmsGo.settle (s : State) (a : Fin 8) : ArmsGo s (s.settle a) := by
  unfold State.settle
  split
  · next h => exact (ArmsGo.modArm s a _ (.held _ h)).trans (.tryResume _ a)
  · next h => exact .finalize s a h
  · exact .refl s

theorem ArmsGo.holdTick (s : State) (a : Fin 8) (h : (s.arm a).state = .holding ∨ (s.arm a).state = .held) :
    ArmsGo s (s.modArm a Arm.holdTick) := .modArm s a _ (.tick _ h)

theorem ArmsGo.holdExpire (s : State) (a : Fin 8) (h : (s.arm a).state = .holding ∨ (s.arm a).state = .held) :
    ArmsGo s (s.holdExpire a) := fun b => by
  unfold State.holdExpire
  rw [State.arm_modArm]
  split
  · next e => subst e; exact (Relation.ReflTransGen.single (ArmMove.tick _ h)).tail (ArmMove.cause _ _)
  · exact .refl

theorem ArmsGo.storeZero (s : State) (a : Fin 8) : ArmsGo s (s.storeZero a) := .modArm s a _ (.zero _ _)

@[simp] theorem Arm.addSecondary_state (x : Arm) (c : EndCause) : (x.addSecondary c).state = x.state := by
  unfold Arm.addSecondary; split
  · rfl
  · simp only; split <;> rfl

@[simp] theorem Arm.recordLeak_state (x : Arm) : x.recordLeak.state = x.state := by
  unfold Arm.recordLeak; split
  · rfl
  · simp

theorem ArmsGo.settleExpire (s : State) (a : Fin 8) (h : (s.arm a).state = .closing) :
    ArmsGo s (s.settleExpire a) := by
  unfold State.settleExpire
  refine ArmsGo.trans (t := s.modArm a (fun x => { x with settleAge := x.settleAge + 1 }.recordLeak)) ?_
    (.finalize _ a (by simp [h]))
  intro b
  rw [State.arm_modArm]
  split
  · next e => subst e; exact (Relation.ReflTransGen.single (ArmMove.settleAge _ h)).tail (ArmMove.leak _ h)
  · exact .refl

@[simp] theorem State.storeZero_state (s : State) (a : Fin 8) : ((s.storeZero a).arm a).state = (s.arm a).state := by
  simp [State.storeZero]

theorem ArmsGo.holdingStep (s : State) (a : Fin 8) (h : (s.arm a).state = .holding) : ArmsGo s (s.holdingStep a) := by
  unfold State.holdingStep
  split
  · exact .holdExpire s a (.inl h)
  · split
    · exact ((ArmsGo.holdTick s a (.inl h)).trans (.storeZero _ a)).trans (.settle _ a)
    · exact (ArmsGo.holdTick s a (.inl h)).trans (.storeZero _ a)

theorem ArmsGo.heldStep (s : State) (a : Fin 8) (h : (s.arm a).state = .held) : ArmsGo s (s.heldStep a) := by
  unfold State.heldStep
  split
  · exact .holdExpire s a (.inr h)
  · exact .holdTick s a (.inr h)

theorem ArmsGo.closingStep (s : State) (a : Fin 8) (h : (s.arm a).state = .closing) : ArmsGo s (s.closingStep a) := by
  unfold State.closingStep
  have hz : ((s.storeZero a).arm a).state = .closing := by simpa using h
  split
  · exact (ArmsGo.storeZero s a).trans (.settle _ a)
  · split
    · exact (ArmsGo.storeZero s a).trans (.settleExpire _ a hz)
    · exact (ArmsGo.storeZero s a).trans (.modArm _ a _ (.settleAge _ hz))

theorem ArmsGo.armAct (s : State) (a : Fin 8) : ArmsGo s (s.armAct a) := by
  unfold State.armAct
  split
  · next h => exact .modArm s a _ (.running _ h)
  · next h => exact .holdingStep s a h
  · next h => exact .heldStep s a h
  · next h => exact .closingStep s a h
  all_goals exact .refl s

theorem ArmsGo.runBlock (a : Fin 8) (received : ArmState) (s : State) (b : Block) :
    ArmsGo s (State.runBlock a received s b) := by
  cases b with
  | armController => exact .armAct s a
  | ratioController => exact .modArm s a _ (.ratio _ _ _)
  | additiveScheduler => exact .modArm s a _ (.pass _)

theorem ArmsGo.armFrameClosed (s : State) (a : Fin 8) : ArmsGo s (s.armFrameClosed a) := by
  unfold State.armFrameClosed
  split
  · exact .refl s
  · split
    · exact .foldl _ (ArmsGo.runBlock a _) _ s
    · exact ArmsGo.trans (t := { s with choices := s.choices + 1 }) (.of_arms rfl) (.foldl _ (ArmsGo.runBlock a _) _ _)

theorem ArmsGo.runPermitDropped (s : State) (a : Fin 8) (cause : DropCause) : ArmsGo s (s.runPermitDropped a cause) := by
  unfold State.runPermitDropped
  split
  · next h => exact .returnPending s a _ h
  · exact .cause s a _

theorem ArmsGo.holdChanged (s : State) (a : Fin 8) (b : Bool) : ArmsGo s (s.holdChanged a b) := by
  unfold State.holdChanged
  split
  · split
    · next h => exact .modArm s a _ (.hold _ h)
    · exact .refl s
  · exact .tryResume s a

theorem ArmsGo.levelsChanged (s : State) (a : Fin 8) (old : Levels) : ArmsGo s (s.levelsChanged a old) := by
  unfold State.levelsChanged
  dsimp only
  generalize hu : (if old.runPermit && !s.rack.levels[a].runPermit
    then s.runPermitDropped a s.rack.levels[a].dropCause else s) = u
  have h1 : ArmsGo s u := hu ▸ .ite (fun _ => .runPermitDropped s a _) (fun _ => .refl s)
  exact .ite (fun _ => h1.trans (.holdChanged u a _)) (fun _ => h1)

theorem ArmsGo.permissiveLost (s : State) (a : Fin 8) (code : Sense) (c : EndCause) :
    ArmsGo s (s.permissiveLost a code c) := by
  unfold State.permissiveLost
  split
  · next h => exact .returnPending s a _ h
  · exact .cause s a _

theorem ArmsGo.permitLine (s : State) (a : Fin 8) (b : Bool) : ArmsGo s (s.permitLine a b) := by
  unfold State.permitLine
  exact .ite (fun _ => .after (.permissiveLost _ a _ _) rfl) (fun _ => .of_arms rfl)

theorem ArmsGo.estopLine (s : State) (b : Bool) : ArmsGo s (s.estopLine b) := by
  unfold State.estopLine
  exact .ite (fun _ => .after (.foldl (fun t a => t.permissiveLost a .estop .estop)
    (fun t a => .permissiveLost t a _ _) allArms _) rfl) (fun _ => .of_arms rfl)

theorem ArmsGo.accrueUnauthorized (s : State) (a : Fin 8) (iv : Nat) (h : (s.arm a).isOpen = false) :
    ArmsGo s (s.accrueUnauthorized a iv) := by
  unfold State.accrueUnauthorized
  dsimp only
  have h1 : ArmsGo s (s.modArm a (fun x => x.accrue iv)) := .modArm s a _ (.accrue _ _ h)
  split
  · split
    · next e => exact (h1.trans (.modArm _ a _ (.fault _ (by simpa [Arm.accrue] using e)))).trans (.requestSave _ a)
    · exact h1.trans (.note _ a _)
    · exact h1
  · exact h1

/-! ## Metering, service, trunk -/

theorem ArmsGo.setMeter (s : State) (a : Fin 8) (p : StreamPos) (m : Meter) : ArmsGo s (s.setMeter a p m) :=
  .of_arms (by simp)

theorem ArmsGo.routeIncrement (s : State) (a : Fin 8) (p : StreamPos) (i : Increment) :
    ArmsGo s (s.routeIncrement a p i) := by
  unfold State.routeIncrement
  split
  · next h => exact .modArm s a _ (.account _ p i h)
  · next h => exact .accrueUnauthorized s a _ (by simpa using h)

theorem ArmsGo.processSample (s : State) (a : Fin 8) (p : StreamPos) (w : MeterWord) :
    ArmsGo s (s.processSample a p w) := by
  unfold State.processSample
  dsimp only
  have h1 : ArmsGo s ((s.setMeter a p (s.processMeter a p w).1).routeIncrement a p (s.processMeter a p w).2) :=
    (ArmsGo.setMeter s a p _).trans (.routeIncrement _ a p _)
  generalize (s.setMeter a p (s.processMeter a p w).1).routeIncrement a p (s.processMeter a p w).2 = u at h1
  split <;> split <;>
    first
    | exact h1
    | exact h1.trans (.cause u a _)
    | exact h1.trans ((ArmsGo.cause u a _).trans (.cause _ a _))

theorem ArmsGo.meterSample (s : State) (a : Fin 8) (p : StreamPos) (w : MeterWord) : ArmsGo s (s.meterSample a p w) := by
  unfold State.meterSample
  split
  · exact .processSample s a p w
  · exact .refl s

theorem ArmsGo.settleMeter (s : State) (a : Fin 8) (p : StreamPos) : ArmsGo s (s.settleMeter a p) := by
  unfold State.settleMeter
  dsimp only
  refine ArmsGo.trans (ArmsGo.of_arms (t := s.modMeter a p (fun m => m.settled s.trunk.frameCounter s.timebase.periodMs))
    (by simp)) ?_
  split <;> split <;>
    first
    | exact .refl _
    | exact .cause _ a _
    | exact .armFrameClosed _ a
    | exact (ArmsGo.cause _ a _).trans (.armFrameClosed _ a)

theorem ArmsGo.refuse (s : State) (request arm : Nat) (code : Sense) : ArmsGo s (s.refuse request arm code) := by
  unfold State.refuse State.recordRefusal
  split
  · exact (ArmsGo.note s _ _).trans (.of_arms rfl)
  · exact .of_arms rfl

theorem ArmsGo.abandonTransfer (s : State) (a : Fin 8) (code : Sense) : ArmsGo s (s.abandonTransfer a code) := by
  unfold State.abandonTransfer
  dsimp only
  refine ArmsGo.trans (ArmsGo.of_arms (t := s.setTransfer a Transfer.released) rfl) ?_
  split
  · exact .refuse _ _ _ _
  · exact .refl _

@[simp] theorem State.releaseReply_arms (s : State) (a : Fin 8) (t : Transfer) : (s.releaseReply a t).arms = s.arms := by
  unfold State.releaseReply; dsimp only; split <;> rfl

@[simp] theorem State.serviceWord_arms (s : State) (a : Fin 8) (i : Fin 64) (b : Byte) (f : ServiceFlags) :
    (s.serviceWord a i b f).arms = s.arms := by
  unfold State.serviceWord; dsimp only; repeat' split
  all_goals simp

theorem ArmsGo.serviceSlotLost (s : State) (a : Fin 8) (i : Fin 64) : ArmsGo s (s.serviceSlotLost a i) := by
  unfold State.serviceSlotLost
  split
  · exact .abandonTransfer s a _
  · exact .refl s

theorem ArmsGo.serviceTick (s : State) (a : Fin 8) : ArmsGo s (s.serviceTick a) := by
  unfold State.serviceTick
  dsimp only
  split
  · exact .abandonTransfer s a _
  · split
    · exact .of_arms rfl
    · exact .refl s

theorem ArmsGo.slotLost (s : State) (a : Fin 8) (r : Role) : ArmsGo s (s.modArm a (fun x => x.slotLost r)) := fun b => by
  rw [State.arm_modArm]
  split
  · unfold Arm.slotLost
    split
    · exact .single (.cause _ _)
    · exact .refl
  · exact .refl

theorem ArmsGo.slotLostEvent (s : State) (i : Fin 64) (a : Fin 8) (r : Role) : ArmsGo s (s.slotLostEvent i a r) := by
  unfold State.slotLostEvent
  dsimp only
  refine ArmsGo.trans ((ArmsGo.slotLost s a r).trans (.serviceSlotLost _ a i)) ?_
  split
  · exact .refl _
  · exact .of_arms (by simp)

theorem ArmsGo.loseSlot (s : State) (i : Fin 64) (a : Fin 8) (r : Role) : ArmsGo s (s.loseSlot i a r) :=
  ArmsGo.trans (t := s.setSlot i _) (.of_arms rfl) (.slotLostEvent _ i a r)

theorem ArmsGo.slotInvalid (s : State) (i : Fin 64) (a : Fin 8) (r : Role) : ArmsGo s (s.slotInvalid i a r) := by
  unfold State.slotInvalid
  dsimp only
  split
  · exact .loseSlot s i a r
  · split <;> exact .of_arms rfl

theorem ArmsGo.trunkDownEvent (s : State) : ArmsGo s s.trunkDownEvent :=
  ArmsGo.trans (t := s.modTrunk _) (.of_arms rfl) (.foldl _ (fun t a => .cause t a _) _ _)

theorem ArmsGo.handOver (s : State) (a : Fin 8) (r : Role) (w : List Byte) : ArmsGo s (s.handOver a r w) := by
  unfold State.handOver
  split
  · exact .refl s
  · exact .meterSample s a _ _
  · exact .meterSample s a _ _
  · split
    · exact .cause s a _
    · exact .refl s
  · split
    · exact .cause s a _
    · exact .refl s
  · exact .modArm s a _ (.word _ _ _ _ _)

theorem ArmsGo.settleAtClose (s : State) (i : Fin 64) (a : Fin 8) (r : Role) : ArmsGo s (s.settleAtClose i a r) := by
  unfold State.settleAtClose
  split
  · exact .refl s
  · split
    · exact .refl s
    · exact .settleMeter s a _

theorem ArmsGo.closeAssigned (s : State) (i : Fin 64) (a : Fin 8) (r : Role) (w : List Byte) :
    ArmsGo s (s.closeAssigned i a r w) := by
  unfold State.closeAssigned
  dsimp only
  refine ArmsGo.trans ?_ (.settleAtClose _ i a r)
  refine .ite (fun _ => .before ?_ (State.serviceWord_arms _ _ _ _ _)) (fun _ => .after (.slotInvalid _ i a r) rfl)
  exact .ite (fun _ => .of_arms rfl) (fun _ => .after (.handOver _ a r w) rfl)

theorem ArmsGo.silenceStep (s : State) : ArmsGo s s.silenceStep := by
  unfold State.silenceStep
  exact .ite (fun _ => .refl s) (fun _ => .ite (fun _ => .after (.trunkDownEvent _) rfl) (fun _ => .of_arms rfl))

theorem ArmsGo.endTest (s : State) : ArmsGo s s.endTest := by
  unfold State.endTest
  exact .ite (fun _ => .of_arms rfl) (fun _ => .after (.trunkDownEvent _) rfl)

theorem ArmsGo.testStep (s : State) : ArmsGo s s.testStep := by
  unfold State.testStep
  exact .ite (fun _ => .after (.endTest _) rfl) (fun _ => .of_arms rfl)

theorem ArmsGo.settleUnassigned (s : State) (a : Fin 8) (p : StreamPos) : ArmsGo s (s.settleUnassigned a p) := by
  unfold State.settleUnassigned
  split
  · exact .settleMeter s a p
  · exact .refl s

theorem ArmsGo.intervalEnd (s : State) : ArmsGo s s.intervalEnd := by
  unfold State.intervalEnd
  dsimp only
  have h1 : ArmsGo s (s.modTrunk (fun t => { t with answering := false })).silenceStep.testStep :=
    .after ((ArmsGo.silenceStep _).trans (.testStep _)) rfl
  generalize (s.modTrunk (fun t => { t with answering := false })).silenceStep.testStep = u at h1
  have h2 := h1.trans (.foldl State.tickWindow ArmsGo.tickWindow allLanes u)
  generalize allLanes.foldl State.tickWindow u = v at h2
  have h3 := h2.trans (.foldl State.serviceTick ArmsGo.serviceTick allArms v)
  generalize allArms.foldl State.serviceTick v = x at h3
  exact h3.trans (.foldl (fun t a => (t.settleUnassigned a .wild).settleUnassigned a .ctrl)
    (fun t a => (ArmsGo.settleUnassigned t a _).trans (.settleUnassigned _ a _)) allArms x)

theorem ArmsGo.closeSlot (s : State) (i : Fin 64) (w : List Byte) : ArmsGo s (s.closeSlot i w) := by
  unfold State.closeSlot
  split
  · exact .of_arms rfl
  · exact .after (.closeAssigned _ i _ _ w) rfl

theorem ArmsGo.closeWindow (s : State) (w : List Byte) : ArmsGo s (s.closeWindow w) := by
  unfold State.closeWindow
  refine .ite (fun _ => ?_) (fun _ => .refl s)
  split
  · next h =>
    have h1 := ArmsGo.closeSlot s ⟨s.trunk.nextWindow, h⟩ w
    exact .ite (fun _ => h1.trans (.intervalEnd _)) (fun _ => h1)
  · exact .after (.intervalEnd _) rfl

theorem ArmsGo.cutWindows (n : Nat) (s : State) : ArmsGo s (s.cutWindows n) := by
  induction n generalizing s with
  | zero => exact .refl s
  | succ n ih =>
    unfold State.cutWindows
    exact .ite (fun _ => (ArmsGo.closeWindow s []).trans (ih _)) (fun _ => .refl s)

theorem ArmsGo.changeAssignment (old : Nat × Vector SlotEntry 64) (s : State) (i : Fin 64) :
    ArmsGo s (s.changeAssignment old i) := by
  unfold State.changeAssignment
  refine .ite (fun _ => .refl s) (fun _ => ?_)
  dsimp only
  split
  · exact .of_arms rfl
  · exact .ite (fun _ => .after (.slotLostEvent _ i _ _) rfl) (fun _ => .of_arms rfl)

theorem ArmsGo.emitFrame (s : State) : ArmsGo s s.emitFrame := by
  unfold State.emitFrame
  dsimp only
  have h1 : ArmsGo s (s.freshSamples.modTrunk (fun t => t.adopt s.config.slotCount s.slotTable)) := .of_arms rfl
  generalize s.freshSamples.modTrunk (fun t => t.adopt s.config.slotCount s.slotTable) = u at h1
  have h2 := h1.trans (.foldl (State.changeAssignment (s.trunk.slotCount, s.trunk.table))
    (ArmsGo.changeAssignment _) (List.finRange 64) u)
  generalize (List.finRange 64).foldl (State.changeAssignment (s.trunk.slotCount, s.trunk.table)) u = v at h2
  exact .before h2 rfl

/-! ## Requests -/

@[simp] theorem State.accept_arms (s : State) (code : RequestCode) (p : List Byte) : (s.accept code p).arms = s.arms := rfl

theorem ArmsGo.accept (s : State) (code : RequestCode) (p : List Byte) : ArmsGo s (s.accept code p) := .of_arms rfl

theorem ArmsGo.deny (s : State) (code : RequestCode) (arm : Byte) (c : Sense) : ArmsGo s (s.deny code arm c) :=
  .refuse _ _ _ _

/-- AUTHORIZE is accepted only in IDLE (R80). -/
theorem State.authorizeDecision_idle {s : State} {a : Fin 8} {f : AuthorizeFields} {ir : Fin 64 × Recipe}
    (h : s.authorizeDecision a f = .ok ir) : (s.arm a).state = .idle := by
  unfold State.authorizeDecision at h
  split at h
  · cases h
  · next e => simpa using e

/-- START is accepted only in AUTHORIZED (R81). -/
theorem State.startDecision_authorized {s : State} {a : Fin 8} {flag : Nat} {cj : Context × Bool}
    (h : s.startDecision a flag = .ok cj) : (s.arm a).state = .authorized := by
  unfold State.startDecision at h
  split at h
  · cases h
  · split at h
    · cases h
    · next e => simpa using e

theorem ArmsGo.startArm (s : State) (a : Fin 8) (c : Context) (j : Bool) (h : (s.arm a).state = .authorized) :
    ArmsGo s (s.startArm a c j) := by
  unfold State.startArm
  split
  · exact ArmsGo.trans (t := s.joinWindow a c.settings.lane) (.of_arms rfl) (.modArm _ a _ (.pend _ h))
  · exact .modArm s a _ (.start _ _ (.inl h))

theorem ArmsGo.cancelArm {s t : State} {a : Fin 8} (h : s.cancelArm a = some t) : ArmsGo s t := by
  unfold State.cancelArm at h
  split at h
  · next e => cases h; exact .modArm s a _ (.withdraw _ e)
  · next e => cases h; exact (ArmsGo.leaveWindow s a).trans (.modArm _ a _ (.unpend _ (by simpa using e)))
  all_goals cases h

theorem ArmsGo.clearArm {s t : State} {a : Fin 8} (h : s.clearArm a = some t) : ArmsGo s t := by
  unfold State.clearArm at h
  split at h
  · next e => cases h; exact .modArm s a _ (.clear _ e)
  · cases h

@[simp] theorem State.acceptService_arms (s : State) (a : Fin 8) (i : Fin 64) (w m : Bool) (q : List Byte) :
    (s.acceptService a i w m q).arms = s.arms := by
  unfold State.acceptService; dsimp only; split <;> rfl

theorem ArmsGo.serveArm (s : State) (code : RequestCode) (a : Fin 8) (arm : Byte) (p : List Byte) :
    ArmsGo s (s.serveArm code a arm p) := by
  unfold State.serveArm
  split
  · split
    · exact .deny _ _ _ _
    · next h =>
      exact (ArmsGo.modArm s a _ (.authorize _ _ _ _ _ (State.authorizeDecision_idle h))).trans (.accept _ _ _)
  · split
    · exact .deny _ _ _ _
    · next h => exact (ArmsGo.startArm s a _ _ (State.startDecision_authorized h)).trans (.accept _ _ _)
  · split
    · exact .deny _ _ _ _
    · next h => exact (ArmsGo.cancelArm h).trans (.accept _ _ _)
  · split
    · exact .deny _ _ _ _
    · next h => exact (ArmsGo.clearArm h).trans (.accept _ _ _)
  · split
    · exact .deny _ _ _ _
    · exact .accept _ _ _
  · split
    · exact .deny _ _ _ _
    · exact .of_arms (by simp)
  all_goals exact .refl s

@[simp] theorem State.rebaseMeters_arms (s : State) (c : Content) : (s.rebaseMeters c).arms = s.arms := by
  cases c <;> simp [State.rebaseMeters]

@[simp] theorem State.writeWorking_arms (s : State) (c : Content) : (s.writeWorking c).arms = s.arms := by
  unfold State.writeWorking; dsimp only; split <;> simp

@[simp] theorem State.acceptStore_arms (s : State) (c : Content) : (s.acceptStore c).arms = s.arms := by
  unfold State.acceptStore State.queueCommit; split <;> simp

theorem ArmsGo.clearSense (s : State) (arm : Nat) : ArmsGo s (s.clearSense arm) := by
  unfold State.clearSense
  split
  · exact .note s _ _
  · exact .of_arms rfl

theorem ArmsGo.serve (s : State) (code : RequestCode) (arm : Byte) (p : List Byte) : ArmsGo s (s.serve code arm p) := by
  unfold State.serve
  split
  iterate 6
    · split
      · exact .serveArm _ _ _ _ _
      · exact .deny _ _ _ _
  · exact (ArmsGo.clearSense s _).trans (.accept _ _ _)
  · exact .accept _ _ _
  · exact .of_arms rfl
  · split
    · exact .deny _ _ _ _
    · exact .of_arms rfl
  · split
    · exact .deny _ _ _ _
    · exact .of_arms rfl
  · exact .of_arms rfl
  · split
    · exact .deny _ _ _ _
    · exact .of_arms (by simp)
  · split
    · exact .deny _ _ _ _
    · exact .accept _ _ _
  · exact .accept _ _ _
  · exact .accept _ _ _
  · split
    · exact .deny _ _ _ _
    · exact .of_arms rfl

theorem ArmsGo.submit (s : State) (r : Request) : ArmsGo s (s.submit r) := by
  unfold State.submit
  split
  · exact .before (.serve s r.code r.arm r.payload) rfl
  · exact .before (.deny s r.code r.arm .badRequest) rfl

theorem ArmsGo.completeRequest (s : State) (b : List Byte) (n : Nat) : ArmsGo s (s.completeRequest b n) := by
  unfold State.completeRequest
  split
  · exact .submit s _
  · exact .before (.refuse s (byteAt b 0) (armField b) .badRequest) rfl

/-- What is done only with the supply on goes by moves if it does so with the supply on. -/
theorem ArmsGo.whenPowered (s : State) (f : State → State) (h : ArmsGo s (f s)) : ArmsGo s (s.whenPowered f) :=
  .ite (fun _ => h) (fun _ => .refl s)

theorem ArmsGo.request (s : State) (code : RequestCode) (arm : Byte) (p : List Byte) : ArmsGo s (s.request code arm p) :=
  .whenPowered s _ (.ite (fun _ => .after (.submit _ _) rfl) (fun _ => .of_arms rfl))

/-! ## Rack link and period events -/

theorem ArmsGo.assemble (s : State) (f : DownFrame) : ArmsGo s (s.assemble f) := by
  unfold State.assemble
  split
  · exact .refl s
  · exact .of_arms rfl
  · exact .of_arms rfl
  · exact .of_arms rfl
  · exact .of_arms rfl
  · exact .of_arms rfl
  · exact .of_arms rfl
  · exact .after (.completeRequest _ _ _) rfl
  · exact .completeRequest _ _ _
  · exact .after (.completeRequest _ _ _) rfl

theorem ArmsGo.takeSegment (s : State) (f : DownFrame) : ArmsGo s (s.takeSegment f) := by
  unfold State.takeSegment
  exact .ite (fun _ => .after (.assemble _ f) rfl) (fun _ => .ite (fun _ => .refl s) (fun _ => .of_arms rfl))

theorem ArmsGo.setLevels (s : State) (l : Vector Levels 8) : ArmsGo s (s.setLevels l) :=
  .after (.foldl (fun t a => t.levelsChanged a s.rack.levels[a]) (fun t a => .levelsChanged t a _) allArms _) rfl

theorem ArmsGo.sendFrames (s : State) : ArmsGo s s.sendFrames := .before (.emitFrame s) rfl

theorem ArmsGo.periodEvent (s : State) : ArmsGo s s.periodEvent := (ArmsGo.cutWindows 65 s).trans (.sendFrames _)

theorem ArmsGo.linkDown (s : State) : ArmsGo s s.linkDown := .before (.setLevels s _) rfl

theorem ArmsGo.silenceRise (s : State) : ArmsGo s s.silenceRise := by
  unfold State.silenceRise
  exact .ite (fun _ => .linkDown s) (fun _ => .ite (fun _ => .of_arms rfl) (fun _ => .refl s))

theorem ArmsGo.internalPeriod (s : State) : ArmsGo s s.internalPeriod :=
  .after ((ArmsGo.silenceRise _).trans (.periodEvent _)) rfl

theorem ArmsGo.acceptFrame (s : State) (f : DownFrame) : ArmsGo s (s.acceptFrame f) :=
  (((ArmsGo.after (.cutWindows 65 (s.recordFrame f)) rfl).trans (.setLevels _ _)).trans (.takeSegment _ f)).trans
    (.sendFrames _)

theorem ArmsGo.receiveFrame (s : State) (b : List Byte) : ArmsGo s (s.receiveFrame b) := by
  unfold State.receiveFrame
  split
  · exact .of_arms rfl
  · exact .ite (fun _ => .acceptFrame s _) (fun _ => .of_arms rfl)

/-! ## Resets and the store engine -/

theorem ArmsGo.restart (s : State) (powered : Bool) (nv : Nonvolatile) : ArmsGo s (s.restart powered nv) := fun b => by
  have : (s.restart powered nv).arm b = Arm.afterReset := by simp [State.restart, State.arm]
  rw [this]; exact .single (.reset _)

@[simp] theorem State.completeSave_arms (s : State) (b : Bool) : (s.completeSave b).arms = s.arms := by
  unfold State.completeSave State.finishSave; split
  · split <;> simp
  · rfl

@[simp] theorem State.completeCommit_arms (s : State) (b : Bool) : (s.completeCommit b).arms = s.arms := by
  unfold State.completeCommit State.finishCommit; split
  · simp
  · rfl

/-- Whatever a command does to an arm, it does by the moves of `ArmMove`. -/
theorem exec_armsGo {c : Instr} {s t : State} (h : exec c s = .next t) : ArmsGo s t := by
  cases c <;> cases h
  case powerUp => exact .restart _ _ _
  case rst => exact .whenPowered s _ (.restart _ _ _)
  case rackFrameReceived => exact .whenPowered s _ (.after (.receiveFrame _ _) rfl)
  case timebaseRackTimeout =>
    refine .whenPowered s _ ?_
    split
    · exact .refl s
    · exact .after (.internalPeriod _) rfl
  case timebaseInternalPeriod =>
    refine .whenPowered s _ ?_
    split
    · exact .after (.internalPeriod _) rfl
    · exact .refl s
  case linkLoss =>
    refine .whenPowered s _ ?_
    split
    · exact .linkDown s
    · exact .refl s
  case answerWindowClose => exact .whenPowered s _ (.closeWindow _ _)
  case lateWordDrop => exact .refl s
  case slotLost =>
    refine .whenPowered s _ ?_
    split
    · exact .refl s
    · split
      · exact .loseSlot _ _ _ _
      · exact .refl s
  case trunkDown =>
    refine .whenPowered s _ ?_
    split
    · exact .after (.trunkDownEvent _) rfl
    · exact .refl s
  case testEnd =>
    refine .whenPowered s _ ?_
    split
    · exact .endTest s
    · exact .refl s
  case startWindowExpiry =>
    refine .whenPowered s _ ?_
    split
    · exact .expireWindow s _
    · exact .refl s
  case tempLost =>
    refine .whenPowered s _ ?_
    split
    · exact .cause s _ _
    · exact .refl s
  case ratioFault =>
    refine .whenPowered s _ ?_
    split
    · exact .refl s
    · split
      · next e => exact .modArm s _ _ (.band _ _ e.1)
      · exact .refl s
  case shotTimeout =>
    refine .whenPowered s _ ?_
    split
    · exact .modArm s _ _ (.age _ _)
    · exact .refl s
  case holdTimeout =>
    refine .whenPowered s _ ?_
    split
    · next e => exact .holdExpire s _ e.1
    · exact .refl s
  case armSettled =>
    refine .whenPowered s _ ?_
    split
    · exact (ArmsGo.storeZero s _).trans (.settle _ _)
    · exact .refl s
  case settleLimit =>
    refine .whenPowered s _ ?_
    split
    · next e => exact .settleExpire s _ e.1
    · exact .refl s
  case saveComplete => exact .whenPowered s _ (.of_arms (by simp))
  case commitComplete => exact .whenPowered s _ (.of_arms (by simp))
  case permitLineChange => exact .permitLine s _ _
  case estopChange => exact .estopLine s _
  case certChange => exact .of_arms rfl
  case deviceReset =>
    refine .whenPowered s _ ?_
    split
    · exact .restart _ _ _
    · exact .refl s
  case serviceTimeout =>
    refine .whenPowered s _ ?_
    split
    · exact .abandonTransfer s _ _
    · exact .refl s
  case powerDown => exact .restart _ _ _
  all_goals exact .request s _ _ _

end Sys2Proof.Machine
end

