-- ==== Sys2Proof/Laws/Contents.lean ====
section
/-! SUPPORT. The content checks of the model and the ranges of spec 04 are the same. -/

namespace Sys2Proof.Machine

theorem inRange_iff_between (lo hi n : Nat) : inRange lo hi n = true ↔ lo ≤ n ∧ n ≤ hi := by simp [inRange]

theorem AdditiveItem.valid_iff (i : AdditiveItem) :
    i.valid = true ↔
      (1 ≤ i.dose ∧ i.dose ≤ 2000) ∧ (10 ≤ i.interval ∧ i.interval ≤ 1000) ∧ 1 ≤ i.tolerance ∧ i.tolerance ≤ 20 := by
  simp [AdditiveItem.valid, inRange_iff_between, and_assoc]

theorem Recipe.inRange_iff (r : Recipe) : r.InRange ↔ r.valid = true := by
  simp [Recipe.InRange, Recipe.valid, inRange_iff_between, AdditiveItem.valid_iff, and_assoc]

theorem flowsRise_iff (points : List CurvePoint) :
    flowsRise points = true ↔ points.Pairwise (fun q r => q.flow < r.flow) := by
  induction points with
  | nil => simp [flowsRise]
  | cons a rest ih =>
    cases rest with
    | nil => simp [flowsRise]
    | cons b rest =>
      simp only [flowsRise, Bool.and_eq_true, decide_eq_true_eq, ih, List.pairwise_cons, List.mem_cons,
        forall_eq_or_imp]
      exact ⟨fun ⟨h, h', k⟩ => ⟨⟨h, fun x hx => h.trans (h' x hx)⟩, h', k⟩, fun ⟨⟨h, _⟩, k⟩ => ⟨h, k⟩⟩

theorem curveInRange_iff (points : List CurvePoint) : curveInRange points ↔ curveValid points = true := by
  simp [curveInRange, curveValid, inRange_iff_between, flowsRise_iff, and_assoc]

theorem ArmEntry.inRange_iff (e : ArmEntry) : e.InRange ↔ e.valid = true := by
  simp [ArmEntry.InRange, ArmEntry.valid, inRange_iff_between, and_assoc]

theorem DeviceConfig.inRange_iff (d : DeviceConfig) : d.InRange ↔ d.valid = true := by
  simp [DeviceConfig.InRange, DeviceConfig.valid, inRange_iff_between, and_assoc, or_assoc]

/-- The content check of STORE passes exactly for a content whose fields lie in their ranges (R150 step 3). -/
theorem Content.inRange_iff (c : Content) : c.InRange ↔ c.valid = true := by
  rcases c with ⟨i, _ | r⟩ | ⟨i, points⟩ | ⟨a, e⟩ | t | ⟨a, t⟩ | d | r <;>
    simp [Content.InRange, Content.valid, Recipe.inRange_iff, curveInRange_iff, ArmEntry.inRange_iff,
      DeviceConfig.inRange_iff]

/-- The length test of STORE that R13 makes is the one of section 9.2. -/
theorem storeLengthRight_iff (p : List Byte) : storeLengthRight p ↔ contentLength p = some p.length := by
  unfold storeLengthRight contentLength
  generalize byteAt p 0 = target
  generalize byteAt p 2 = mark
  generalize byteAt p 3 = n
  generalize p.length = l
  rcases target with _ | _ | _ | _ | _ | _ | _ | k
  · by_cases h0 : mark = 0
    · subst h0; simp [eq_comm]
    · by_cases h1 : mark = 1
      · subst h1; simp [eq_comm]
      · simp [h0, h1]
  all_goals simp [eq_comm]

theorem Role.number_eq (r : Role) : r.number = r.code := by cases r <;> rfl

end Sys2Proof.Machine
end

