-- ==== Sys2Proof/Laws/Metering.lean ====
section
/-! SUPPORT. The tests of the Measurement Unit in the terms of spec 03: constants, seeds, the plausibility limit. -/

namespace Sys2Proof.Machine

/-- A meter has exactly the constants that the model reads (R41). -/
theorem State.convertsWith_iff {s : State} {a : Fin 8} {p : StreamPos} {k : MeterConstants} :
    s.ConvertsWith a p k ↔ k = s.constants a p := by
  obtain ⟨k1, k2, k3, k4, k5⟩ := k
  unfold State.ConvertsWith State.constants
  dsimp only
  cases p <;> cases ho : (s.arm a).isOpen <;> cases hx : (s.arm a).ctx <;>
    simp [ArmEntry.k10, ArmEntry.curve, ArmSettings.maxFlow, Recipe.alpha, Recipe.isEthanol] <;> tauto

/-- The seed test of the model in the terms of R43. -/
theorem State.seeds_iff {s : State} {a : Fin 8} {p : StreamPos} : s.isSeed a p = true ↔ s.Seeds a p := by
  unfold State.isSeed State.Seeds State.converting
  simp only [Bool.or_eq_true, Bool.and_eq_true, Option.isNone_iff_eq_none, Bool.not_eq_true', Bool.or_eq_false_iff, or_assoc]

/-- The plausibility test of the model in the terms of R44 and R45. -/
theorem State.above_iff {s : State} {a : Fin 8} {p : StreamPos} {w : MeterWord} (h : ¬ s.Seeds a p) :
    s.implausible a p w = true ↔ s.AboveLimit a p w.total := by
  obtain ⟨last, hl⟩ : ∃ last, (s.meter a p).lastTotal = some last := by
    cases e : (s.meter a p).lastTotal with
    | none => exact absurd (.inl e) h
    | some l => exact ⟨l, rfl⟩
  have hc : ∀ k : MeterConstants, ∀ g, k.limit g = (k.qmax * 3 * k.k10 * k.periodMs + 1199999) / 1200000 * g := by
    intro k g
    have e : ∀ n : Nat, ceilDiv n 1200000 = (n + 1199999) / 1200000 := fun n => by unfold ceilDiv; omega
    rw [← e]; rfl
  have hi : s.implausible a p w = decide ((s.constants a p).limit (frameGap s.trunk.frameCounter (s.meter a p).lastFrame) <
      pulseDelta w.total last) := by
    unfold State.implausible; rw [hl]; rfl
  rw [hi, decide_eq_true_iff, hc]
  constructor
  · intro h; exact ⟨_, _, State.convertsWith_iff.2 rfl, hl, h⟩
  · rintro ⟨k, l, hk, e, h⟩
    rw [State.convertsWith_iff] at hk
    subst hk
    rw [hl] at e; cases e; exact h

/-- A sample that is not counted: a seed, or a total above the limit (R43, R45). -/
theorem State.uncounted_iff {s : State} {a : Fin 8} {p : StreamPos} {w : MeterWord} :
    (s.isSeed a p || s.implausible a p w) = true ↔ (s.Seeds a p ∨ s.AboveLimit a p w.total) := by
  rw [Bool.or_eq_true, State.seeds_iff]
  by_cases h : s.Seeds a p
  · simp [h]
  · rw [State.above_iff h]

end Sys2Proof.Machine
end

