-- ==== Sys2Proof/Laws/Requests.lean ====
section
/-! SUPPORT. What a request comes to once its owner has decided it: the answer or the refusal, in the terms of
`State.answered` and `State.refused`. -/

namespace Sys2Proof.Machine

/-- The state as its owner sees a request apart from a frame: no assembly is open. -/
def State.cleared (s : State) : State := s.modRack (fun r => { r with assembly := none })

@[simp] theorem State.cleared_powered (s : State) : s.cleared.powered = s.powered := rfl
@[simp] theorem State.cleared_nowUs (s : State) : s.cleared.nowUs = s.nowUs := rfl
@[simp] theorem State.cleared_lines (s : State) : s.cleared.lines = s.lines := rfl
@[simp] theorem State.cleared_timebase (s : State) : s.cleared.timebase = s.timebase := rfl
@[simp] theorem State.cleared_trunk (s : State) : s.cleared.trunk = s.trunk := rfl
@[simp] theorem State.cleared_meters (s : State) : s.cleared.meters = s.meters := rfl
@[simp] theorem State.cleared_arms (s : State) : s.cleared.arms = s.arms := rfl
@[simp] theorem State.cleared_windows (s : State) : s.cleared.windows = s.windows := rfl
@[simp] theorem State.cleared_transfers (s : State) : s.cleared.transfers = s.transfers := rfl
@[simp] theorem State.cleared_tables (s : State) : s.cleared.tables = s.tables := rfl
@[simp] theorem State.cleared_store (s : State) : s.cleared.store = s.store := rfl
@[simp] theorem State.cleared_nv (s : State) : s.cleared.nv = s.nv := rfl
@[simp] theorem State.cleared_choices (s : State) : s.cleared.choices = s.choices := rfl
@[simp] theorem State.cleared_pending (s : State) : s.cleared.pending = s.pending := rfl
@[simp] theorem State.cleared_config (s : State) : s.cleared.config = s.config := rfl
@[simp] theorem State.cleared_slotTable (s : State) : s.cleared.slotTable = s.slotTable := rfl
@[simp] theorem State.cleared_arm (s : State) (a : Fin 8) : s.cleared.arm a = s.arm a := rfl
@[simp] theorem State.cleared_armEntry (s : State) (a : Fin 8) : s.cleared.armEntry a = s.armEntry a := rfl
@[simp] theorem State.cleared_meter (s : State) (a : Fin 8) (p : StreamPos) : s.cleared.meter a p = s.meter a p := by
  cases p <;> rfl
@[simp] theorem State.cleared_rack (s : State) : s.cleared.rack = { s.rack with assembly := none } := rfl

/-- A test over all arms in order. -/
theorem allArms_any (f : Fin 8 → Bool) : allArms.any f = true ↔ ∃ a, f a = true := by
  simp only [allArms, List.any_eq_true]
  constructor
  · rintro ⟨a, -, h⟩; exact ⟨a, h⟩
  · rintro ⟨a, h⟩; exact ⟨a, by fin_cases a <;> simp, h⟩

theorem field_one {n : Nat} (h : n < 256) : field 1 n = [BitVec.ofNat 8 n] := by
  simp [field, h, beBytes]

theorem RequestCode.code_lt (c : RequestCode) : c.code < 256 := by cases c <;> decide

theorem RequestCode.code_eq_store {c : RequestCode} : c.code = 0x0B ↔ c = .store := by cases c <;> decide

theorem Sense.code_lt (c : Sense) : c.code < 256 := by cases c <;> decide

theorem responseFlags_false (b : Bool) : field 1 (responseFlags b false) = [if b then 1 else 0] := by
  cases b <;> rfl

/-- An accepted request's record, and what it leaves (R14, R140). -/
theorem RackLink.fixResponse_cleared (r : RackLink) (code : RequestCode) (refused : Bool) (c : Sense) (p : List Byte)
    (b : Bool) (h : p.length < 256) :
    ({ r with assembly := none } : RackLink).fixResponse code.code refused c false p b =
      r.sendsRecord code refused c p b := by
  have hr : field 1 (boolNum refused) = [if refused then 1 else 0] := by cases refused <;> rfl
  simp [RackLink.fixResponse, RackLink.sendsRecord, responseRecord, field_one (RequestCode.code_lt code),
    field_one (Sense.code_lt c), field_one h, responseFlags_false, hr]

/-- An accepted request, concluded (R14, R140, R149, R159). -/
theorem State.accept_conclude (s : State) (code : RequestCode) (p : List Byte) (h : p.length < 256) :
    (s.cleared.accept code p).conclude code.code (code == .resetPrepare) = s.answered code p := by
  simp only [State.accept, State.respond, State.cleared, State.conclude, State.modRack, State.modStore,
    State.answered, StoreCtl.decided, RackLink.fixResponse_cleared _ _ _ _ _ _ h, RequestCode.code_eq_store]

/-- A refused request, concluded (R139, R140, R149, R159). -/
theorem State.deny_conclude (s : State) (code : RequestCode) (arm : Byte) (c : Sense) :
    (s.cleared.deny code arm c).conclude code.code false = s.refused code arm c := by
  have h := fun r : RackLink => RackLink.fixResponse_cleared r code true c [] false (by simp)
  unfold State.deny State.refuse State.recordRefusal State.refused
  split
  · simp only [State.cleared, State.conclude, State.modRack, State.modStore, State.modArm, State.setArm, State.arm,
      StoreCtl.decided, h, RequestCode.code_eq_store, Arm.note]
  · simp only [State.cleared, State.conclude, State.modRack, State.modStore, State.noteDevice, StoreCtl.decided,
      RequestCode.code_eq_store]
    have := h { s.rack with deviceSense := c }
    simp only at this
    rw [← this]

/-- The meaning of a request row on a ready part. -/
theorem exec_ofRequest (s : State) (code : RequestCode) (arm : Byte) (p : List Byte) (h : s.Ready) :
    exec (Instr.ofRequest code arm p) s = .next (s.cleared.submit { code := code, arm := arm, payload := p }) := by
  have e : s.request code arm p = s.cleared.submit { code := code, arm := arm, payload := p } := by
    simp [State.request, State.whenPowered, h.1, State.takeRequest, h.2, State.cleared]
  cases code <;> exact congrArg Host.Outcome.next e

/-- A request that passes the check of R13 is decided by its owner. -/
theorem exec_admitted (s : State) (code : RequestCode) (arm : Byte) (p : List Byte) (h : s.Ready)
    (ha : ({ code := code, arm := arm, payload := p } : Request).admitted = true) :
    exec (Instr.ofRequest code arm p) s =
      .next ((s.cleared.serve code arm p).conclude code.code (code == .resetPrepare)) := by
  rw [exec_ofRequest s code arm p h, State.submit, if_pos ha]

/-- A request that does not pass it is refused BAD_REQUEST. -/
theorem exec_not_admitted (s : State) (code : RequestCode) (arm : Byte) (p : List Byte) (h : s.Ready)
    (ha : ({ code := code, arm := arm, payload := p } : Request).admitted = false) :
    exec (Instr.ofRequest code arm p) s = .next (s.refused code arm .badRequest) := by
  rw [exec_ofRequest s code arm p h, State.submit, if_neg (by simp [ha])]
  exact congrArg _ (State.deny_conclude s code arm .badRequest)

theorem armByte_toNat (a : Fin 8) : (armByte a).toNat = a.val := by
  have := a.isLt
  simp [armByte]; omega

theorem armByte_lt (a : Fin 8) : (armByte a).toNat < 8 := by rw [armByte_toNat]; exact a.isLt

theorem finOf_armByte (a : Fin 8) : finOf 8 (armByte a).toNat = some a := by
  simp [finOf, armByte_toNat]

/-- A request that its owner accepts in a state `u`. -/
theorem exec_accepted {s u : State} {code : RequestCode} {arm : Byte} {p q : List Byte} (h : s.Ready)
    (ha : ({ code := code, arm := arm, payload := p } : Request).admitted = true) (hq : q.length < 256)
    (e : s.cleared.serve code arm p = u.cleared.accept code q) :
    exec (Instr.ofRequest code arm p) s = .next (u.answered code q) :=
  (exec_admitted s code arm p h ha).trans (congrArg _ (by rw [e]; exact State.accept_conclude u code q hq))

/-- A request that its owner refuses. -/
theorem exec_refused {s : State} {code : RequestCode} {arm : Byte} {p : List Byte} {c : Sense} (h : s.Ready)
    (ha : ({ code := code, arm := arm, payload := p } : Request).admitted = true) (hc : code ≠ .resetPrepare)
    (e : s.cleared.serve code arm p = s.cleared.deny code arm c) :
    exec (Instr.ofRequest code arm p) s = .next (s.refused code arm c) :=
  (exec_admitted s code arm p h ha).trans (congrArg _ (by
    rw [e, beq_eq_false_iff_ne.mpr hc]; exact State.deny_conclude s code arm c))

/-- An arm-directed request with the field of an arm reaches that arm. -/
theorem State.serve_armByte {s : State} {code : RequestCode} {a : Fin 8} {p : List Byte}
    (hc : code = .authorize ∨ code = .start ∨ code = .cancel ∨ code = .clearFault ∨ code = .readRecord ∨
      code = .service) :
    s.serve code (armByte a) p = s.serveArm code a (armByte a) p := by
  rcases hc with rfl | rfl | rfl | rfl | rfl | rfl <;> simp [State.serve, finOf_armByte]

end Sys2Proof.Machine
end

