-- ==== Sys2Proof/Laws/Sides.lean ====
section
/-! SUPPORT. Says once what the shared operations leave alone. A batch or metering operation is a `FieldSide` change: it
touches arms, meters, start windows, the count of free choices and the totalizer saves asked for. A trunk operation is a
`TrunkSide` change: it may also touch the trunk, the transfers and the transaction with its discard flag. -/

namespace Sys2Proof.Machine

/-- Store controls after totalizer saves have been asked for: each begins on an idle engine or waits at the tail, unless
one of its arm waits already (R143, R152). -/
inductive SavesAsked : StoreCtl → StoreCtl → Prop
  | refl (c : StoreCtl) : SavesAsked c c
  | starts {c d : StoreCtl} (a : Fin 8) (copy : Fin 2) (image : SaveImage) : SavesAsked c d → d.underWay = none →
      SavesAsked c { d with underWay := some (.save a copy image) }
  | waits {c d : StoreCtl} (a : Fin 8) : SavesAsked c d → d.underWay ≠ none → QueuedOp.save a ∉ d.queue →
      SavesAsked c { d with queue := d.queue ++ [.save a] }

theorem SavesAsked.trans {c d e : StoreCtl} (h : SavesAsked c d) (k : SavesAsked d e) : SavesAsked c e := by
  induction k with
  | refl => exact h
  | starts a copy image _ g ih => exact .starts a copy image ih g
  | waits a _ g q ih => exact .waits a ih g q

/-- Asking for saves changes only the operation under way and the waiting ones. -/
theorem SavesAsked.keeps {c d : StoreCtl} (h : SavesAsked c d) :
    d.latch = c.latch ∧ d.status = c.status ∧ d.saveFault = c.saveFault ∧ d.latest = c.latest ∧
    d.prepared = c.prepared := by
  induction h with
  | refl => exact ⟨rfl, rfl, rfl, rfl, rfl⟩
  | starts _ _ _ _ _ ih => exact ih
  | waits _ _ _ _ ih => exact ih

/-- An operation under way stays under way while saves are asked for. -/
theorem SavesAsked.underWay {c d : StoreCtl} (h : SavesAsked c d) {op : RunningOp} (e : c.underWay = some op) :
    d.underWay = some op := by
  induction h with
  | refl => exact e
  | starts _ _ _ _ g ih => rw [ih] at g; cases g
  | waits _ _ _ _ ih => exact ih

/-- A change made by the batch and the metering of an arm. -/
structure FieldSide (s t : State) : Prop where
  powered : t.powered = s.powered
  nowUs : t.nowUs = s.nowUs
  lines : t.lines = s.lines
  rack : t.rack = s.rack
  timebase : t.timebase = s.timebase
  trunk : t.trunk = s.trunk
  transfers : t.transfers = s.transfers
  tables : t.tables = s.tables
  nv : t.nv = s.nv
  pending : t.pending = s.pending
  store : SavesAsked s.store t.store

namespace FieldSide

theorem refl (s : State) : FieldSide s s := ⟨rfl, rfl, rfl, rfl, rfl, rfl, rfl, rfl, rfl, rfl, .refl _⟩

theorem trans {s t u : State} (h : FieldSide s t) (k : FieldSide t u) : FieldSide s u :=
  ⟨k.powered.trans h.powered, k.nowUs.trans h.nowUs, k.lines.trans h.lines, k.rack.trans h.rack,
   k.timebase.trans h.timebase, k.trunk.trans h.trunk, k.transfers.trans h.transfers, k.tables.trans h.tables,
   k.nv.trans h.nv, k.pending.trans h.pending, h.store.trans k.store⟩

theorem ite {s t u : State} {c : Prop} [Decidable c] (h : c → FieldSide s t) (k : ¬c → FieldSide s u) :
    FieldSide s (if c then t else u) := by
  split
  · next e => exact h e
  · next e => exact k e

theorem foldl {β : Type} (f : State → β → State) (h : ∀ s x, FieldSide s (f s x)) (l : List β) (s : State) :
    FieldSide s (l.foldl f s) := by
  induction l generalizing s with
  | nil => exact .refl s
  | cons x l ih => exact (h s x).trans (ih _)

theorem modArm (s : State) (a : Fin 8) (f : Arm → Arm) : FieldSide s (s.modArm a f) :=
  ⟨rfl, rfl, rfl, rfl, rfl, rfl, rfl, rfl, rfl, rfl, .refl _⟩

theorem setWindow (s : State) (l : Fin 4) (w : StartWindow) : FieldSide s (s.setWindow l w) :=
  ⟨rfl, rfl, rfl, rfl, rfl, rfl, rfl, rfl, rfl, rfl, .refl _⟩

theorem setMeter (s : State) (a : Fin 8) (p : StreamPos) (m : Meter) : FieldSide s (s.setMeter a p m) := by
  cases p <;> exact ⟨rfl, rfl, rfl, rfl, rfl, rfl, rfl, rfl, rfl, rfl, .refl _⟩

theorem modMeter (s : State) (a : Fin 8) (p : StreamPos) (f : Meter → Meter) : FieldSide s (s.modMeter a p f) :=
  setMeter s a p _

theorem requestSave (s : State) (a : Fin 8) : FieldSide s (s.requestSave a) := by
  unfold State.requestSave State.joinQueue
  split
  · exact .refl s
  · next q =>
    split
    · next u => exact ⟨rfl, rfl, rfl, rfl, rfl, rfl, rfl, rfl, rfl, rfl, .starts a _ _ (.refl _) u⟩
    · next u =>
      exact ⟨rfl, rfl, rfl, rfl, rfl, rfl, rfl, rfl, rfl, rfl, .waits a (.refl _) (by simp [u]) q⟩

/-! ### The batch -/

theorem leaveWindow (s : State) (a : Fin 8) : FieldSide s (s.leaveWindow a) := by
  unfold State.leaveWindow
  split
  · exact .refl s
  · exact .setWindow s _ _

theorem returnPending (s : State) (a : Fin 8) (c : Sense) : FieldSide s (s.returnPending a c) :=
  (leaveWindow s a).trans (.modArm _ a _)

theorem expirePending (s : State) (a : Fin 8) : FieldSide s (s.expirePending a) := by
  unfold State.expirePending
  split
  · split
    · exact .refl s
    · split <;> exact .modArm s a _
  · exact .refl s

theorem expireWindow (s : State) (l : Fin 4) : FieldSide s (s.expireWindow l) :=
  (foldl _ expirePending _ s).trans (.setWindow _ l _)

theorem tickWindow (s : State) (l : Fin 4) : FieldSide s (s.tickWindow l) :=
  .ite (fun _ => .expireWindow s l) (fun _ => .ite (fun _ => .setWindow s l _) (fun _ => .refl s))

theorem tryResume (s : State) (a : Fin 8) : FieldSide s (s.tryResume a) :=
  .ite (fun _ => .modArm s a _) (fun _ => .refl s)

theorem finalize (s : State) (a : Fin 8) : FieldSide s (s.finalize a) := by
  unfold State.finalize
  split
  · exact (modArm s a _).trans (.requestSave _ a)
  · exact .refl s

theorem settle (s : State) (a : Fin 8) : FieldSide s (s.settle a) := by
  unfold State.settle
  split
  · exact (modArm s a _).trans (.tryResume _ a)
  · exact .finalize s a
  · exact .refl s

theorem settleExpire (s : State) (a : Fin 8) : FieldSide s (s.settleExpire a) := (modArm s a _).trans (.finalize _ a)

theorem holdingStep (s : State) (a : Fin 8) : FieldSide s (s.holdingStep a) :=
  .ite (fun _ => .modArm s a _) (fun _ => .ite
    (fun _ => ((modArm s a Arm.holdTick).trans (.modArm _ a _)).trans (.settle _ a))
    (fun _ => (modArm s a Arm.holdTick).trans (.modArm _ a _)))

theorem heldStep (s : State) (a : Fin 8) : FieldSide s (s.heldStep a) :=
  .ite (fun _ => .modArm s a _) (fun _ => .modArm s a _)

theorem closingStep (s : State) (a : Fin 8) : FieldSide s (s.closingStep a) :=
  .ite (fun _ => (modArm s a _).trans (.settle _ a)) (fun _ => .ite (fun _ => (modArm s a _).trans (.settleExpire _ a))
    (fun _ => (modArm s a _).trans (.modArm _ a _)))

theorem armAct (s : State) (a : Fin 8) : FieldSide s (s.armAct a) := by
  unfold State.armAct
  split
  · exact .modArm s a _
  · exact .holdingStep s a
  · exact .heldStep s a
  · exact .closingStep s a
  all_goals exact .refl s

theorem runBlock (a : Fin 8) (received : ArmState) (s : State) (b : Block) :
    FieldSide s (State.runBlock a received s b) := by
  cases b with
  | armController => exact .armAct s a
  | ratioController => exact modArm s a (fun x => x.ratioAct (received == .running) (s.meter a .wild).flow)
  | additiveScheduler => exact .modArm s a _

theorem armFrameClosed (s : State) (a : Fin 8) : FieldSide s (s.armFrameClosed a) := by
  unfold State.armFrameClosed
  refine .ite (fun _ => .refl s) (fun _ => .ite (fun _ => .foldl _ (runBlock a _) _ s) (fun _ => ?_))
  exact FieldSide.trans (t := { s with choices := s.choices + 1 })
    ⟨rfl, rfl, rfl, rfl, rfl, rfl, rfl, rfl, rfl, rfl, .refl _⟩ (.foldl _ (runBlock a _) _ _)

theorem runPermitDropped (s : State) (a : Fin 8) (cause : DropCause) : FieldSide s (s.runPermitDropped a cause) :=
  .ite (fun _ => .returnPending s a _) (fun _ => .modArm s a _)

theorem holdChanged (s : State) (a : Fin 8) (b : Bool) : FieldSide s (s.holdChanged a b) :=
  .ite (fun _ => .ite (fun _ => .modArm s a _) (fun _ => .refl s)) (fun _ => .tryResume s a)

theorem levelsChanged (s : State) (a : Fin 8) (old : Levels) : FieldSide s (s.levelsChanged a old) := by
  unfold State.levelsChanged
  dsimp only
  generalize hu : (if old.runPermit && !s.rack.levels[a].runPermit
    then s.runPermitDropped a s.rack.levels[a].dropCause else s) = u
  have h1 : FieldSide s u := hu ▸ .ite (fun _ => .runPermitDropped s a _) (fun _ => .refl s)
  exact .ite (fun _ => h1.trans (.holdChanged u a _)) (fun _ => h1)

theorem permissiveLost (s : State) (a : Fin 8) (code : Sense) (c : EndCause) : FieldSide s (s.permissiveLost a code c) :=
  .ite (fun _ => .returnPending s a _) (fun _ => .modArm s a _)

/-- A PERMIT line: the line's level, then a change on the field side. -/
theorem permitLine (s : State) (a : Fin 8) (b : Bool) :
    FieldSide { s with lines := { s.lines with permit := s.lines.permit.set a b } } (s.permitLine a b) :=
  .ite (fun _ => .permissiveLost _ a _ _) (fun _ => .refl _)

/-- The ESTOP line: the line's level, then a change on the field side. -/
theorem estopLine (s : State) (b : Bool) :
    FieldSide { s with lines := { s.lines with estop := b } } (s.estopLine b) :=
  .ite (fun _ => .foldl _ (fun t a => permissiveLost t a _ _) _ _) (fun _ => .refl _)

/-- New levels: the levels held, then a change on the field side. -/
theorem setLevels (s : State) (l : Vector Levels 8) :
    FieldSide (s.modRack (fun r => { r with levels := l })) (s.setLevels l) :=
  .foldl (fun t a => t.levelsChanged a s.rack.levels[a]) (fun t a => .levelsChanged t a _) allArms _

theorem accrueUnauthorized (s : State) (a : Fin 8) (iv : Nat) : FieldSide s (s.accrueUnauthorized a iv) := by
  unfold State.accrueUnauthorized
  dsimp only
  refine .ite (fun _ => ?_) (fun _ => .modArm s a _)
  split
  · exact ((modArm s a _).trans (.modArm _ a _)).trans (.requestSave _ a)
  · exact (modArm s a _).trans (.modArm _ a _)
  · exact .modArm s a _

/-! ### Metering -/

theorem routeIncrement (s : State) (a : Fin 8) (p : StreamPos) (i : Increment) : FieldSide s (s.routeIncrement a p i) :=
  .ite (fun _ => .modArm s a _) (fun _ => .accrueUnauthorized s a _)

theorem processSample (s : State) (a : Fin 8) (p : StreamPos) (w : MeterWord) : FieldSide s (s.processSample a p w) := by
  unfold State.processSample
  dsimp only
  have h1 : FieldSide s ((s.setMeter a p (s.processMeter a p w).1).routeIncrement a p (s.processMeter a p w).2) :=
    (setMeter s a p _).trans (.routeIncrement _ a p _)
  generalize (s.setMeter a p (s.processMeter a p w).1).routeIncrement a p (s.processMeter a p w).2 = u at h1
  split <;> split <;>
    first
    | exact h1
    | exact h1.trans (.modArm u a _)
    | exact h1.trans ((modArm u a _).trans (.modArm _ a _))

theorem meterSample (s : State) (a : Fin 8) (p : StreamPos) (w : MeterWord) : FieldSide s (s.meterSample a p w) :=
  .ite (fun _ => .processSample s a p w) (fun _ => .refl s)

theorem settleMeter (s : State) (a : Fin 8) (p : StreamPos) : FieldSide s (s.settleMeter a p) := by
  unfold State.settleMeter
  dsimp only
  refine FieldSide.trans (modMeter s a p (fun m => m.settled s.trunk.frameCounter s.timebase.periodMs)) ?_
  split <;> split <;>
    first
    | exact .refl _
    | exact .modArm _ a _
    | exact .armFrameClosed _ a
    | exact (modArm _ a _).trans (.armFrameClosed _ a)

theorem settleUnassigned (s : State) (a : Fin 8) (p : StreamPos) : FieldSide s (s.settleUnassigned a p) :=
  .ite (fun _ => .settleMeter s a p) (fun _ => .refl s)

theorem settleAtClose (s : State) (i : Fin 64) (a : Fin 8) (r : Role) : FieldSide s (s.settleAtClose i a r) := by
  unfold State.settleAtClose
  split
  · exact .refl s
  · exact .ite (fun _ => .refl s) (fun _ => .settleMeter s a _)

theorem handOver (s : State) (a : Fin 8) (r : Role) (w : List Byte) : FieldSide s (s.handOver a r w) := by
  unfold State.handOver
  split
  · exact .refl s
  · exact .meterSample s a _ _
  · exact .meterSample s a _ _
  · exact .ite (fun _ => .modArm s a _) (fun _ => .refl s)
  · exact .ite (fun _ => .modArm s a _) (fun _ => .refl s)
  · exact .modArm s a _

end FieldSide

/-- A change made by the field trunk and the Service Relay. -/
structure TrunkSide (s t : State) : Prop where
  powered : t.powered = s.powered
  nowUs : t.nowUs = s.nowUs
  lines : t.lines = s.lines
  rack : t.rack = { s.rack with transaction := t.rack.transaction, discard := t.rack.discard }
  timebase : t.timebase = s.timebase
  tables : t.tables = s.tables
  nv : t.nv = s.nv
  pending : t.pending = s.pending
  store : SavesAsked s.store t.store

/-- A change on the field side is one on the trunk side. -/
theorem FieldSide.trunkSide {s t : State} (h : FieldSide s t) : TrunkSide s t :=
  ⟨h.powered, h.nowUs, h.lines, by rw [h.rack], h.timebase, h.tables, h.nv, h.pending, h.store⟩

namespace TrunkSide

theorem refl (s : State) : TrunkSide s s := ⟨rfl, rfl, rfl, rfl, rfl, rfl, rfl, rfl, .refl _⟩

theorem trans {s t u : State} (h : TrunkSide s t) (k : TrunkSide t u) : TrunkSide s u :=
  ⟨k.powered.trans h.powered, k.nowUs.trans h.nowUs, k.lines.trans h.lines, by rw [k.rack, h.rack],
   k.timebase.trans h.timebase, k.tables.trans h.tables, k.nv.trans h.nv, k.pending.trans h.pending,
   h.store.trans k.store⟩

theorem ite {s t u : State} {c : Prop} [Decidable c] (h : c → TrunkSide s t) (k : ¬c → TrunkSide s u) :
    TrunkSide s (if c then t else u) := by
  split
  · next e => exact h e
  · next e => exact k e

theorem foldl {β : Type} (f : State → β → State) (h : ∀ s x, TrunkSide s (f s x)) (l : List β) (s : State) :
    TrunkSide s (l.foldl f s) := by
  induction l generalizing s with
  | nil => exact .refl s
  | cons x l ih => exact (h s x).trans (ih _)

theorem modTrunk (s : State) (f : Trunk → Trunk) : TrunkSide s (s.modTrunk f) :=
  ⟨rfl, rfl, rfl, rfl, rfl, rfl, rfl, rfl, .refl _⟩

theorem setTransfer (s : State) (a : Fin 8) (t : Transfer) : TrunkSide s (s.setTransfer a t) :=
  ⟨rfl, rfl, rfl, rfl, rfl, rfl, rfl, rfl, .refl _⟩

theorem fixResponse (s : State) (code : Nat) (refused : Bool) (sense : Sense) (truncated : Bool) (p : List Byte)
    (reset : Bool) : TrunkSide s (s.modRack (fun r => r.fixResponse code refused sense truncated p reset)) :=
  ⟨rfl, rfl, rfl, rfl, rfl, rfl, rfl, rfl, .refl _⟩

/-! ### The Service Relay -/

/-- A refusal recorded for an arm. -/
theorem refuse (s : State) (request : Nat) (a : Fin 8) (code : Sense) : TrunkSide s (s.refuse request a.val code) := by
  unfold State.refuse State.recordRefusal
  rw [dif_pos a.isLt]
  exact (FieldSide.modArm s _ _).trunkSide.trans (.fixResponse _ _ _ _ _ _ _)

theorem abandonTransfer (s : State) (a : Fin 8) (code : Sense) : TrunkSide s (s.abandonTransfer a code) :=
  .ite (fun _ => (setTransfer s a _).trans (.refuse _ _ a _)) (fun _ => .setTransfer s a _)

theorem releaseReply (s : State) (a : Fin 8) (t : Transfer) : TrunkSide s (s.releaseReply a t) :=
  .ite (fun _ => (setTransfer s a _).trans (.fixResponse _ _ _ _ _ _ _)) (fun _ => .setTransfer s a _)

theorem serviceWord (s : State) (a : Fin 8) (i : Fin 64) (b : Byte) (f : ServiceFlags) :
    TrunkSide s (s.serviceWord a i b f) :=
  .ite (fun _ => .ite (fun _ => .releaseReply s a _) (fun _ => .setTransfer s a _)) (fun _ => .refl s)

theorem serviceSlotLost (s : State) (a : Fin 8) (i : Fin 64) : TrunkSide s (s.serviceSlotLost a i) :=
  .ite (fun _ => .abandonTransfer s a _) (fun _ => .refl s)

theorem serviceTick (s : State) (a : Fin 8) : TrunkSide s (s.serviceTick a) :=
  .ite (fun _ => .abandonTransfer s a _) (fun _ => .ite (fun _ => .setTransfer s a _) (fun _ => .refl s))

/-! ### The trunk -/

theorem slotLostEvent (s : State) (i : Fin 64) (a : Fin 8) (r : Role) : TrunkSide s (s.slotLostEvent i a r) := by
  unfold State.slotLostEvent
  dsimp only
  have h1 : TrunkSide s ((s.modArm a (fun x => x.slotLost r)).serviceSlotLost a i) :=
    (FieldSide.modArm s a _).trunkSide.trans (.serviceSlotLost _ a i)
  split
  · exact h1
  · exact h1.trans (FieldSide.modMeter _ a _ _).trunkSide

theorem loseSlot (s : State) (i : Fin 64) (a : Fin 8) (r : Role) : TrunkSide s (s.loseSlot i a r) :=
  (modTrunk s _).trans (.slotLostEvent _ i a r)

theorem slotInvalid (s : State) (i : Fin 64) (a : Fin 8) (r : Role) : TrunkSide s (s.slotInvalid i a r) :=
  .ite (fun _ => .loseSlot s i a r) (fun _ => .ite (fun _ => .modTrunk s _) (fun _ => .modTrunk s _))

theorem slotValid (s : State) (i : Fin 64) (toggle : Bool) : TrunkSide s (s.slotValid i toggle) :=
  (modTrunk s _).trans (.modTrunk _ _)

theorem trunkDownEvent (s : State) : TrunkSide s s.trunkDownEvent :=
  (modTrunk s _).trans (FieldSide.foldl _ (fun t a => .modArm t a _) allArms _).trunkSide

theorem closeAssigned (s : State) (i : Fin 64) (a : Fin 8) (r : Role) (w : List Byte) :
    TrunkSide s (s.closeAssigned i a r w) := by
  unfold State.closeAssigned
  dsimp only
  refine TrunkSide.trans ?_ (FieldSide.settleAtClose _ i a r).trunkSide
  refine .ite (fun _ => TrunkSide.trans ?_ (.serviceWord _ a i _ _))
    (fun _ => (modTrunk s _).trans (.slotInvalid _ i a r))
  exact .ite (fun _ => (modTrunk s _).trans (.slotValid _ i _))
    (fun _ => ((modTrunk s _).trans (.slotValid _ i _)).trans (FieldSide.handOver _ a r w).trunkSide)

theorem silenceStep (s : State) : TrunkSide s s.silenceStep :=
  .ite (fun _ => .refl s) (fun _ => .ite (fun _ => (modTrunk s _).trans (.trunkDownEvent _)) (fun _ => .modTrunk s _))

theorem endTest (s : State) : TrunkSide s s.endTest :=
  .ite (fun _ => (modTrunk s _).trans (.modTrunk _ _)) (fun _ => (modTrunk s _).trans (.trunkDownEvent _))

theorem testStep (s : State) : TrunkSide s s.testStep :=
  .ite (fun _ => (modTrunk s _).trans (.endTest _)) (fun _ => .modTrunk s _)

theorem intervalEnd (s : State) : TrunkSide s s.intervalEnd := by
  unfold State.intervalEnd
  dsimp only
  have h1 : TrunkSide s (s.modTrunk (fun t => { t with answering := false })).silenceStep.testStep :=
    ((modTrunk s _).trans (.silenceStep _)).trans (.testStep _)
  generalize (s.modTrunk (fun t => { t with answering := false })).silenceStep.testStep = u at h1
  have h2 := h1.trans (FieldSide.foldl State.tickWindow FieldSide.tickWindow allLanes u).trunkSide
  generalize allLanes.foldl State.tickWindow u = v at h2
  have h3 := h2.trans (foldl State.serviceTick serviceTick allArms v)
  generalize allArms.foldl State.serviceTick v = x at h3
  exact h3.trans (FieldSide.foldl (fun t a => (t.settleUnassigned a .wild).settleUnassigned a .ctrl)
    (fun t a => (FieldSide.settleUnassigned t a _).trans (.settleUnassigned _ a _)) allArms x).trunkSide

theorem closeSlot (s : State) (i : Fin 64) (w : List Byte) : TrunkSide s (s.closeSlot i w) := by
  unfold State.closeSlot
  dsimp only
  split
  · exact .modTrunk s _
  · exact (modTrunk s _).trans (.closeAssigned _ i _ _ w)

theorem closeWindow (s : State) (w : List Byte) : TrunkSide s (s.closeWindow w) := by
  unfold State.closeWindow
  refine .ite (fun _ => ?_) (fun _ => .refl s)
  split
  · next h => exact .ite (fun _ => (closeSlot s _ w).trans (.intervalEnd _)) (fun _ => .closeSlot s _ w)
  · exact (modTrunk s _).trans (.intervalEnd _)

theorem cutWindows (n : Nat) (s : State) : TrunkSide s (s.cutWindows n) := by
  induction n generalizing s with
  | zero => exact .refl s
  | succ n ih =>
    unfold State.cutWindows
    exact .ite (fun _ => (closeWindow s []).trans (ih _)) (fun _ => .refl s)

theorem changeAssignment (old : Nat × Vector SlotEntry 64) (s : State) (i : Fin 64) :
    TrunkSide s (s.changeAssignment old i) := by
  unfold State.changeAssignment
  refine .ite (fun _ => .refl s) (fun _ => ?_)
  dsimp only
  split
  · exact .modTrunk s _
  · exact .ite (fun _ => (modTrunk s _).trans (.slotLostEvent _ i _ _)) (fun _ => .modTrunk s _)

theorem emitFrame (s : State) : TrunkSide s s.emitFrame := by
  unfold State.emitFrame
  dsimp only
  have h0 : TrunkSide s s.freshSamples := ⟨rfl, rfl, rfl, rfl, rfl, rfl, rfl, rfl, .refl _⟩
  have h2 := (h0.trans (.modTrunk _ (fun t => t.adopt s.config.slotCount s.slotTable))).trans
    (.foldl (State.changeAssignment (s.trunk.slotCount, s.trunk.table)) (changeAssignment _) (List.finRange 64) _)
  generalize (List.finRange 64).foldl (State.changeAssignment (s.trunk.slotCount, s.trunk.table)) _ = v at h2
  exact h2.trans ⟨rfl, rfl, rfl, rfl, rfl, rfl, rfl, rfl, .refl _⟩

/-- The frames of a period event: a change on the trunk side, then the upstream frame sent, then the timebase. -/
theorem sendFrames (s : State) :
    ∃ t, TrunkSide s t ∧
      s.sendFrames =
        { t.sendUpstream with timebase := { t.timebase with periodMs := t.config.periodMs, lastEventUs := t.nowUs } } :=
  ⟨_, .emitFrame _, rfl⟩

/-- A period event: a change on the trunk side, then the upstream frame sent, then the timebase. -/
theorem periodEvent (s : State) :
    ∃ t, TrunkSide s t ∧
      s.periodEvent =
        { t.sendUpstream with timebase := { t.timebase with periodMs := t.config.periodMs, lastEventUs := t.nowUs } } :=
  ⟨_, (cutWindows 65 _).trans (.emitFrame _), rfl⟩

end TrunkSide

end Sys2Proof.Machine
end

