-- ==== Sys2Proof/Laws/Store.lean ====
section
/-! SUPPORT. What the operations of the Table Store, of the byte encodings and of an end cause do, said once each. -/

namespace Sys2Proof.Machine

/-! ## Bytes -/

theorem beBytes_length (width n : Nat) : (beBytes width n).length = width := by
  induction width generalizing n <;> simp_all [beBytes]

theorem field_length (width n : Nat) : (field width n).length = width := by
  unfold field
  split <;> exact beBytes_length _ _

theorem checkBytes_length (bytes : List Byte) : (checkBytes bytes).length = 2 := rfl

/-! ## Entries by key -/

/-- A nonvolatile entry read after another, or the same, was replaced. -/
theorem NvTables.get_put (t : NvTables) (e : NvEntry) (k k' : EntryKey) :
    (t.put e k).get k' = if k = k' then e else t.get k' := by
  cases k <;> cases k' <;> simp [NvTables.put, NvTables.get, Vector.getElem_set, Fin.ext_iff]

/-- A copy of a save entry read after one was replaced. -/
theorem SaveEntry.get_put (e : SaveEntry) (c d : Fin 2) (x : SaveCopy) :
    (e.put c x).get d = if d = c then x else e.get d := by
  fin_cases c <;> fin_cases d <;> simp [SaveEntry.put, SaveEntry.get]

/-- A saved copy read after one was replaced in the array. -/
theorem Nonvolatile.saves_putSave (n : Nonvolatile) (a b : Fin 8) (c d : Fin 2) (x : SaveCopy) :
    (n.putSave a c x).saves[b].get d = if b = a ∧ d = c then x else n.saves[b].get d := by
  unfold Nonvolatile.putSave
  by_cases h : b = a
  · subst h
    simp [SaveEntry.get_put]
  · simp only [h, false_and, if_false]
    rw [get_set_ne _ _ _ _ (Ne.symm h)]

/-- The nonvolatile invalid flag of one entry set: contents stay, and so do all other flags. -/
theorem Tables.setInvalid_keeps (t : Tables) (b : Bool) (k k' : EntryKey) :
    (t.setInvalid b k).content k' = t.content k' ∧
    (t.setInvalid b k).flags k' = if k = k' then ((t.flags k').1, b) else t.flags k' := by
  cases k <;> cases k' <;>
    simp [Tables.setInvalid, Tables.content, Tables.flags, Vector.getElem_set, Fin.ext_iff, Entry.withInvalid] <;>
    (split <;> simp_all)

/-- A content written: its entry holds it with working differs as given, every other entry stays. -/
theorem Tables.write_keeps (t : Tables) (differs : Bool) (c : Content) (k : EntryKey) :
    (t.write differs c).content k = (if c.key = k then c else t.content k) ∧
    (t.write differs c).flags k = if c.key = k then (differs, (t.flags k).2) else t.flags k := by
  cases c <;> cases k <;>
    simp [Tables.write, Tables.content, Tables.flags, Content.key, Vector.getElem_set, Fin.ext_iff, Entry.stored] <;>
    (split <;> simp_all [Fin.ext_iff])

/-! ## The store engine -/

/-- An operation joins: it begins on an idle engine and waits at the tail of a busy one (R152). -/
theorem State.joinQueue_eq (s : State) (op : QueuedOp) :
    (s.store.underWay = none →
      s.joinQueue op = { s with store := { s.store with underWay := some (s.beginOp op) } }) ∧
    (s.store.underWay ≠ none → s.joinQueue op = { s with store := { s.store with queue := s.store.queue ++ [op] } }) := by
  unfold State.joinQueue
  constructor
  · intro h
    simp [h, State.modStore]
  · intro h
    split
    · next e => exact absurd e h
    · rfl

/-- The next operation begins when one completes (R152). -/
theorem State.beginNext_eq (s : State) :
    s.beginNext = { s with store := { s.store with
      underWay := (match s.store.queue with | [] => none | op :: _ => some (s.beginOp op)),
      queue := s.store.queue.tail } } := by
  unfold State.beginNext
  cases h : s.store.queue <;> simp [State.modStore, h]

/-- Asking for saves keeps the queue in its form (R143, R152). -/
theorem SavesAsked.queueGood {c d : StoreCtl} (h : SavesAsked c d) (g : c.QueueGood) : d.QueueGood := by
  induction h with
  | refl => exact g
  | starts a copy image _ u ih =>
    obtain ⟨h1, h2, h3⟩ := ih
    refine ⟨nofun, h2, ?_⟩
    simpa [commitUnderWay, u, h1 u, commitsIn] using h3
  | waits a _ u q ih =>
    obtain ⟨h1, h2, h3⟩ := ih
    refine ⟨fun e => absurd e u, fun b => ?_, ?_⟩
    · by_cases e : a = b
      · subst e
        simp [List.count_eq_zero_of_not_mem q]
      · have : QueuedOp.save a ≠ QueuedOp.save b := fun k => e (QueuedOp.save.inj k)
        simpa [List.count_singleton, this] using h2 b
    · simpa [commitsIn] using h3

/-! ## The conditions of a STORE -/

/-- The model's test of the protected range is that of R154. -/
theorem Protection.covers_iff (p : Protection) (i : Fin 64) : p.covers i = true ↔ p.Protects i := by
  have hc : rangeCount p.range = p.counted := by
    unfold Protection.counted rangeCount
    generalize p.range = r
    revert r
    decide
  have hl : p.counted ≤ 64 := by
    unfold Protection.counted
    split <;> omega
  unfold Protection.covers Protection.Protects
  rw [hc]
  cases p.complement <;> cases p.top <;> simp

/-- The model's test for a metrological STORE is that of R156. -/
theorem State.metrological_iff (s : State) (c : Content) : s.metrological c = true ↔ s.Metrological c := by
  unfold State.Metrological
  cases c <;> simp [State.metrological, ArmEntry.metroDiffers]
  simp [or_assoc]

/-- Condition 4 of R150. -/
theorem State.badMode_iff (s : State) (c : Content) : s.badMode c = true ↔ s.StoreBadMode c := by
  have h : ∀ m, c.namesMode m = true ↔ ∃ r : Protection, c = .protection r ∧ r.mode = m := by
    intro m
    cases c <;> simp [Content.namesMode]
  unfold State.badMode State.StoreBadMode
  cases s.store.latch <;> simp [h, State.metrological_iff]

/-- Condition 5 of R150. -/
theorem State.protectedStore_iff (s : State) (c : Content) : s.protectedStore c = true ↔ s.StoreProtected c := by
  unfold State.StoreProtected
  cases c <;> simp [State.protectedStore, Protection.covers_iff]

/-- Condition 6 of R150. -/
theorem State.certBars_iff (s : State) (c : Content) : s.certBars c = true ↔ s.StoreCertLocked c := by
  unfold State.certBars State.StoreCertLocked
  cases c <;> simp [State.metrological_iff]
  next r => simp [State.Metrological]

/-- Condition 7 of R150. -/
theorem State.batchesBar_iff (s : State) (c : Content) : s.batchesBar c = true ↔ s.StoreBatchesOpen c := by
  have any : ∀ f : Fin 8 → Bool, allArms.any f = true ↔ ∃ a, f a = true := by
    intro f
    simp only [allArms, List.any_eq_true]
    exact ⟨fun ⟨a, _, h⟩ => ⟨a, h⟩, fun ⟨a, h⟩ => ⟨a, by fin_cases a <;> simp, h⟩⟩
  have ho : s.anyOpen = true ↔ ∃ a, (s.arm a).isOpen = true := any _
  unfold State.StoreBatchesOpen
  cases c with
  | recipe | aliasTable | protection => simp [State.batchesBar]
  | slotTable => simp [State.batchesBar, ho]
  | curve i points => simp [State.batchesBar, State.curveInUse, any]
  | armEntry a e =>
    have := s.metrological_iff (.armEntry a e)
    simp only [State.metrological] at this
    simp [State.batchesBar, this]
  | config r =>
    simp only [State.batchesBar, Bool.and_eq_true, Bool.or_eq_true, bne_iff_ne, ho]
    simp

/-! ## An end cause -/

/-- A cause that reaches an arm without a flowing or closing batch leaves it as it was (R96). -/
theorem Arm.raiseCause_other (x : Arm) (c : EndCause)
    (h : x.state ≠ .running ∧ x.state ≠ .holding ∧ x.state ≠ .held ∧ x.state ≠ .closing) : x.raiseCause c = x := by
  unfold Arm.raiseCause
  split <;> simp_all

/-- A cause that reaches a flowing batch takes it to CLOSING (R96). -/
theorem Arm.raiseCause_flowing (x : Arm) (c : EndCause)
    (h : x.state = .running ∨ x.state = .holding ∨ x.state = .held) : x.raiseCause c = x.enterClosing c := by
  unfold Arm.raiseCause
  rcases h with h | h | h <;> rw [h]

/-- A cause that reaches a closing batch joins its secondary causes (R97). -/
theorem Arm.raiseCause_closing (x : Arm) (c : EndCause) (h : x.state = .closing) : x.raiseCause c = x.addSecondary c := by
  unfold Arm.raiseCause
  rw [h]

/-- Setting up or closing additive entries changes nothing of an arm but its entries and its injectors. -/
theorem Arm.closeEntries_eq (x : Arm) (normal : Bool) :
    x.closeEntries normal =
      { x with entries := (x.closeEntries normal).entries, injectors := (x.closeEntries normal).injectors } := by
  have hk : ∀ (y : Arm) (k : Nat), { y.closeEntryNormal k with entries := x.entries, injectors := x.injectors } =
      { y with entries := x.entries, injectors := x.injectors } := by
    intro y k
    unfold Arm.closeEntryNormal
    split
    · rfl
    · dsimp only
      split <;> rfl
  have hl : ∀ (l : List Nat) (y : Arm),
      { l.foldl Arm.closeEntryNormal y with entries := x.entries, injectors := x.injectors } =
        { y with entries := x.entries, injectors := x.injectors } := by
    intro l
    induction l with
    | nil => exact fun _ => rfl
    | cons k l ih => exact fun y => (ih _).trans (hk y k)
  unfold Arm.closeEntries
  split
  · have h := hl (List.range x.entries.length) x
    generalize (List.range x.entries.length).foldl Arm.closeEntryNormal x = y at h ⊢
    cases x; cases y; simp_all
  · rfl

/-- An end cause acts as R96 and R97 say. -/
theorem Arm.takes_raiseCause (x : Arm) (c : EndCause) : x.Takes (x.raiseCause c) c := by
  refine ⟨fun h => ?_, fun h => ?_, fun h k => ?_⟩
  · rw [Arm.raiseCause_flowing x c h]
    unfold Arm.enterClosing
    dsimp only
    rw [Arm.closeEntries_eq]
    split
    · rename_i hl
      exact ⟨rfl, rfl, rfl, rfl, rfl, rfl, rfl, rfl, rfl, (if_pos hl).symm, rfl, rfl, rfl, rfl, rfl, rfl, rfl, rfl, rfl,
        rfl, rfl⟩
    · rename_i hl
      exact ⟨rfl, rfl, rfl, rfl, rfl, rfl, rfl, rfl, rfl, (if_neg hl).symm, rfl, rfl, rfl, rfl, rfl, rfl, rfl, rfl, rfl,
        rfl, rfl⟩
  · rw [Arm.raiseCause_closing x c h]
    unfold Arm.addSecondary
    split
    · rfl
    · cases c <;> rfl
  · refine Arm.raiseCause_other x c ⟨fun e => h (.inl e), fun e => h (.inr (.inl e)), fun e => h (.inr (.inr e)), k⟩

end Sys2Proof.Machine
end

