-- ==== Sys2Proof/Laws/Records.lean ====
section
/-! SUPPORT. Where the fields of a record stand in its encoding. -/

namespace Sys2Proof.Machine

/-- The number that two runs of bytes carry together. -/
theorem readBe_append (a b : List Byte) : readBe (a ++ b) = readBe a * 256 ^ b.length + readBe b := by
  unfold readBe
  rw [List.foldl_append]
  generalize List.foldl (fun acc (b : Byte) => acc * 256 + b.toNat) 0 a = x
  induction b generalizing x with
  | nil => simp
  | cons y ys ih =>
    simp only [List.foldl_cons, List.length_cons]
    rw [ih (x * 256 + y.toNat), ih (0 * 256 + y.toNat)]
    ring

/-- A number that fits its width is read back from its bytes. -/
theorem readBe_beBytes : ∀ (w v : Nat), v < 256 ^ w → readBe (beBytes w v) = v
  | 0, v, h => by simp at h; subst h; rfl
  | w + 1, v, h => by
    have e : beBytes (w+1) v = [BitVec.ofNat 8 (v / 256 ^ w)] ++ beBytes w v := rfl
    have e2 : ∀ w v, beBytes w v = beBytes w (v % 256 ^ w) := by
      intro w
      induction w with
      | zero => intros; rfl
      | succ w ih =>
        intro v
        show _ :: _ = _ :: _
        congr 1
        · apply BitVec.eq_of_toNat_eq
          simp only [BitVec.toNat_ofNat]
          rw [pow_succ]
          show _ = v % (256 ^ w * 256) / 256 ^ w % 256
          rw [Nat.mod_mul_right_div_self]
          simp
        · rw [ih v, ih (v % 256 ^ (w+1)), pow_succ, Nat.mod_mul_right_mod]
    rw [e, readBe_append, beBytes_length, e2, readBe_beBytes w _ (Nat.mod_lt _ (by positivity))]
    have : v / 256 ^ w < 256 := by
      rw [Nat.div_lt_iff_lt_mul (by positivity)]; rw [pow_succ] at h; omega
    simp [readBe, Nat.mod_eq_of_lt this]
    rw [mul_comm]; exact Nat.div_add_mod v (256^w)

/-- A field that stands at an offset is carried there. -/
theorem carries_of_drop {p r : List Byte} {o w v : Nat} (h : p.drop o = field w v ++ r) : Carries p o w v := by
  intro hv
  unfold numAt slice
  rw [h, List.take_left' (field_length w v)]
  unfold field
  rw [if_pos hv, readBe_beBytes w v hv]

/-- A byte that stands at an offset is read there. -/
theorem byteAt_of_drop {p r : List Byte} {o v : Nat} (hv : v < 256) (h : p.drop o = field 1 v ++ r) :
    byteAt p o = v := by
  rw [field_one hv] at h
  have : p[o]? = some (BitVec.ofNat 8 v) := by
    have := congrArg (fun l : List Byte => l[0]?) h
    simpa using this
  simp [byteAt, List.getD_eq_getElem?_getD, this]; omega

/-- What follows a part whose length is known. -/
theorem drop_after {p q r : List Byte} {o k o' : Nat} (h : p.drop o = q ++ r) (hk : q.length = k) (ho : o' = o + k) :
    p.drop o' = r := by
  rw [ho, ← List.drop_drop, h, List.drop_left' hk]

/-- What follows a field. -/
theorem drop_field {p r : List Byte} {o w v o' : Nat} (h : p.drop o = field w v ++ r) (ho : o' = o + w) :
    p.drop o' = r := drop_after h (field_length w v) ho

/-- A stream group that stands at an offset is carried there. -/
theorem StreamRecord.carriedAt_of_drop (r : StreamRecord) {p q : List Byte} {o : Nat} (h : p.drop o = r.encode ++ q) :
    r.CarriedAt p o ∧ p.drop (o + 18) = q := by
  unfold StreamRecord.encode at h
  simp only [List.append_assoc] at h
  have h1 := drop_field (o' := o + 1) h rfl
  have h5 := drop_field (o' := o + 5) h1 (by omega)
  have h9 := drop_field (o' := o + 9) h5 (by omega)
  have h11 : p.drop (o + 11) = _ := 
    drop_after (k := 2) h9 (by cases r.avgTemp <;> simp [field_length, signedField, beBytes_length]) (by omega)
  have h13 := drop_field (o' := o + 13) h11 (by omega)
  have h14 := drop_field (o' := o + 14) h13 (by omega)
  have h18 := drop_field (o' := o + 18) h14 (by omega)
  refine ⟨⟨?_, carries_of_drop h1, carries_of_drop h5, ?_, ?_, carries_of_drop h11,
    byteAt_of_drop (by omega) h13, carries_of_drop h14⟩, h18⟩
  · have := byteAt_of_drop (by cases r.ethanol <;> decide) h
    rw [this]; cases r.ethanol <;> rfl
  · intro e
    rw [e] at h9
    exact carries_of_drop h9 (by decide)
  · intro t e h1 h2
    rw [e] at h9
    have e : signedField t = field 2 (t % 65536).toNat := by
      unfold signedField field; rw [if_pos (by omega)]
    replace h9 : p.drop (o + 9) = signedField t ++ _ := h9
    rw [e] at h9
    rw [carries_of_drop h9 (by omega)]
    unfold signed16; split <;> omega

/-- An additive item that stands at an offset is carried there. -/
theorem AdditiveRecord.carriedAt_of_drop (r : AdditiveRecord) {p q : List Byte} {o : Nat}
    (h : p.drop o = r.encode ++ q) :
    r.CarriedAt p o ∧ p.drop (o + 18) = q := by
  unfold AdditiveRecord.encode at h
  simp only [List.append_assoc] at h
  have h1 := drop_field (o' := o + 1) h rfl
  have h5 := drop_field (o' := o + 5) h1 (by omega)
  have h9 := drop_field (o' := o + 9) h5 (by omega)
  have h11 := drop_field (o' := o + 11) h9 (by omega)
  have h13 := drop_field (o' := o + 13) h11 (by omega)
  have h15 := drop_field (o' := o + 15) h13 (by omega)
  have h17 := drop_field (o' := o + 17) h15 (by omega)
  have h18 := drop_field (o' := o + 18) h17 (by omega)
  refine ⟨⟨byteAt_of_drop (by omega) h, carries_of_drop h1, carries_of_drop h5,
    carries_of_drop h9, carries_of_drop h11, carries_of_drop h13, carries_of_drop h15, ?_⟩, h18⟩
  have := byteAt_of_drop (by cases r.outcome <;> decide) h17
  rw [this]; cases r.outcome <;> rfl

/-- Additive items that stand at an offset are carried one after the other. -/
theorem AdditiveRecord.carriedAt_all : ∀ (l : List AdditiveRecord) {p : List Byte} {o : Nat},
    p.drop o = l.flatMap AdditiveRecord.encode →
    (∀ (k : Nat) (i : AdditiveRecord), l[k]? = some i → i.CarriedAt p (o + 18 * k)) ∧
    (p.drop o).length = 18 * l.length
  | [], p, o, h => by simp at h; simp; omega
  | x :: l, p, o, h => by
    have hx := AdditiveRecord.carriedAt_of_drop x (by simpa using h)
    obtain ⟨h1, h2⟩ := AdditiveRecord.carriedAt_all l hx.2
    constructor
    · intro k i hk
      cases k with
      | zero => simp at hk; subst hk; exact hx.1
      | succ k =>
        have := h1 k i (by simpa using hk)
        rw [show o + 18 * (k+1) = o + 18 + 18 * k by omega]; exact this
    · have : (p.drop o).length = (x.encode ++ p.drop (o+18)).length := by
        rw [h, hx.2]; simp
      rw [this]; simp [h2] at *
      simp only [AdditiveRecord.encode, List.length_append, field_length]; omega

/-- The bits that the secondary causes set. -/
theorem secondaryBits_testBit (l : List EndCause) (j : Nat) :
    (secondaryBits l).testBit j = true ↔ ∃ c ∈ l, j = (if c = .estop then 15 else c.sense.code - 32) := by
  have key : ∀ (l : List EndCause) (a : Nat), (l.foldl (fun acc c => acc ||| 2 ^ c.bit) a).testBit j = true ↔
      a.testBit j = true ∨ ∃ c ∈ l, j = c.bit := by
    intro l
    induction l with
    | nil => simp
    | cons x l ih =>
      intro a
      rw [List.foldl_cons, ih]
      simp only [Nat.testBit_or, Bool.or_eq_true, Nat.testBit_two_pow, List.mem_cons, decide_eq_true_eq]
      constructor
      · rintro ((h | h) | ⟨c, h1, h2⟩)
        · exact .inl h
        · exact .inr ⟨x, .inl rfl, h.symm⟩
        · exact .inr ⟨c, .inr h1, h2⟩
      · rintro (h | ⟨c, rfl | h1, h2⟩)
        · exact .inl (.inl h)
        · exact .inl (.inr h2.symm)
        · exact .inr ⟨c, h1, h2⟩
  unfold secondaryBits
  rw [key]
  simp [EndCause.bit]

/-- The secondary causes fit two bytes. -/
theorem secondaryBits_lt (l : List EndCause) : secondaryBits l < 65536 := by
  have key : ∀ (l : List EndCause) (a : Nat), a < 2 ^ 16 →
      (l.foldl (fun acc c => acc ||| 2 ^ c.bit) a) < 2 ^ 16 := by
    intro l
    induction l with
    | nil => simp
    | cons x l ih =>
      intro a ha
      rw [List.foldl_cons]
      exact ih _ (Nat.or_lt_two_pow ha (by cases x <;> decide))
  exact key l 0 (by decide)

/-- Every field of an encoded record stands at its offset (section 8.1). -/
theorem Record.encode_carriedBy (r : Record) (hf : r.fits) : r.CarriedBy r.encode := by
  obtain ⟨hn, ha⟩ := hf
  have h0 : r.encode.drop 0 = r.encode := rfl
  generalize hp : r.encode = p at h0 ⊢
  have h := h0.trans hp.symm
  unfold Record.encode keyOfSlot at h
  simp only [List.append_assoc, List.flatMap_cons, List.flatMap_nil, List.nil_append] at h
  set n := r.name.length with hnd
  have h1 := drop_field (o' := 1) h rfl
  have h2 := drop_field (o' := 2) h1 rfl
  have h4 := drop_field (o' := 4) h2 rfl
  have h8 := drop_field (o' := 8) h4 rfl
  have h9 := drop_field (o' := 9) h8 rfl
  have h10 := drop_field (o' := 10) h9 rfl
  have h11 := drop_field (o' := 11) h10 rfl
  have h12 := drop_field (o' := 12) h11 rfl
  have h13 := drop_field (o' := 13) h12 rfl
  have k13 : p.drop (13 + n) = _ := drop_after h13 rfl rfl
  have k17 := drop_field (o' := 17 + n) k13 (by omega)
  have k18 := drop_field (o' := 18 + n) k17 (by omega)
  have k22 := drop_field (o' := 22 + n) k18 (by omega)
  have k26 := drop_field (o' := 26 + n) k22 (by omega)
  have s26 := StreamRecord.carriedAt_of_drop _ k26
  have k44 := s26.2
  rw [show 26 + n + 18 = 44 + n by omega] at k44
  have s44 := StreamRecord.carriedAt_of_drop _ k44
  have k62 := s44.2
  rw [show 44 + n + 18 = 62 + n by omega] at k62
  have k64 := drop_field (o' := 64 + n) k62 (by omega)
  have k65 := drop_field (o' := 65 + n) k64 (by omega)
  have k69 := drop_field (o' := 69 + n) k65 (by omega)
  have k73 := drop_field (o' := 73 + n) k69 (by omega)
  have k77 := drop_field (o' := 77 + n) k73 (by omega)
  have k78 := drop_field (o' := 78 + n) k77 (by omega)
  have k82 := drop_field (o' := 82 + n) k78 (by omega)
  have k86 := drop_field (o' := 86 + n) k82 (by omega)
  have k87 := drop_field (o' := 87 + n) k86 (by omega)
  have k88 := drop_field (o' := 88 + n) k87 (by omega)
  have k90 := drop_field (o' := 90 + n) k88 (by omega)
  have k92 := drop_field (o' := 92 + n) k90 (by omega)
  have k93 := drop_field (o' := 93 + n) k92 (by omega)
  have its := AdditiveRecord.carriedAt_all _ k93
  have hs := r.slot.isLt
  have hl : p.length = 93 + n + 18 * r.additives.length := by
    have e1 := its.2
    have e2 : (p.drop (92 + n)).length = 1 + (r.additives.flatMap AdditiveRecord.encode).length := by
      rw [k92]; simp [field_length]
    rw [← k93] at e2
    simp only [List.length_drop] at e1 e2
    omega
  refine ⟨hl, ⟨?_, byteAt_of_drop (by omega) h1, carries_of_drop h2, carries_of_drop h4,
    byteAt_of_drop (by omega) h8, byteAt_of_drop (by omega) h9,
    byteAt_of_drop (by omega) h10, byteAt_of_drop (by omega) h11, byteAt_of_drop (by omega) h12, ?_⟩,
    ⟨carries_of_drop k13, ?_, carries_of_drop k18, carries_of_drop k22, s26.1, s44.1⟩,
    ⟨carries_of_drop k62, ?_, carries_of_drop k65, carries_of_drop k69, carries_of_drop k73, ?_,
      carries_of_drop k78, carries_of_drop k82, carries_of_drop k86, ?_, ?_,
      carries_of_drop k90, byteAt_of_drop (by omega) k92⟩, its.1⟩
  · rw [byteAt_of_drop (by cases r.state <;> decide) h]; cases r.state <;> rfl
  · rw [h13]; exact List.take_left' rfl
  · rw [byteAt_of_drop (by cases r.netBasis <;> decide) k17]; cases r.netBasis <;> rfl
  · rw [byteAt_of_drop (by cases r.ratioStatus <;> decide) k64]; cases r.ratioStatus <;> rfl
  · rw [byteAt_of_drop (by cases r.overshootFlag <;> decide) k77]; cases r.overshootFlag <;> rfl
  · refine byteAt_of_drop ?_ k87
    cases r.endReason with
    | none => decide
    | some c => exact Sense.code_lt _
  · intro j
    rw [carries_of_drop k88 (secondaryBits_lt _)]
    exact secondaryBits_testBit _ j

/-- The average temperature of an account is that of R135. -/
theorem Account.avgTemp_averages (acc : Account) : acc.Averages acc.avgTemp := by
  unfold Account.Averages Account.avgTemp
  by_cases h : acc.gross = 0
  · simp [h]
  · right
    refine ⟨by omega, _, if_neg h, ?_⟩
    unfold roundDiv
    set g := acc.gross
    set w := acc.weight
    have hd := Nat.div_add_mod (2 * w.natAbs + g) (2 * g)
    have hm := Nat.mod_lt (2 * w.natAbs + g) (show 0 < 2 * g by omega)
    generalize hq : (2 * w.natAbs + g) / (2 * g) = q at hd
    generalize hr : (2 * w.natAbs + g) % (2 * g) = m at hd hm
    have hd' : 2 * ((g : Int) * q) + m = 2 * (w.natAbs : Int) + g := by
      have := congrArg (Nat.cast : Nat → Int) hd; push_cast at this ⊢; linarith
    split
    · next hw =>
      have : (w.natAbs : Int) = w := Int.natAbs_of_nonneg hw
      have hz : w = 0 → (g : Int) * (q : Int) = 0 := by
        intro e
        have : q = 0 := by rw [← hq, e]; exact Nat.div_eq_of_lt (by simp; omega)
        simp [this]
      refine ⟨?_, ?_, ?_⟩ <;> (generalize (g : Int) * (q : Int) = z at *; omega)
    · next hw =>
      have : (w.natAbs : Int) = -w := by omega
      have e : (g : Int) * (-(q : Int)) = -((g : Int) * q) := by ring
      rw [e]
      refine ⟨?_, ?_, ?_⟩ <;> (generalize (g : Int) * (q : Int) = z at *; omega)

end Sys2Proof.Machine
end

