-- ==== Sys2Proof/WellFormed.lean ====
section
/-! DEFINITION. The checks a command's operands meet that their types do not already say. -/

namespace Sys2Proof

/-- A request's payload has at most 240 bytes, the most its length byte may give (spec 01 section 1.1, R13). -/
def payloadFits (payload : List Byte) : Bool := decide (payload.length ≤ 240)

/-- An answer window receives at most one upstream word of 8 bytes (R21). -/
def windowFits (word : List Byte) : Bool := decide (word.length ≤ 8)

/-- A late word has 8 bytes (spec 02 section 2.1). -/
def lateWordFits (word : List Byte) : Bool := decide (word.length = 8)

/-- The command is one the outside can present. The model gives every other command a meaning too. -/
def Instr.wellFormed : Instr → Bool
  | .powerUp | .rst | .timebaseRackTimeout | .timebaseInternalPeriod | .linkLoss | .trunkDown | .testEnd => true
  | .rackFrameReceived _ _ => true
  | .answerWindowClose word => windowFits word
  | .lateWordDrop word => lateWordFits word
  | .slotLost _ | .startWindowExpiry _ | .tempLost _ _ | .ratioFault _ | .shotTimeout _ _ => true
  | .holdTimeout _ | .armSettled _ | .settleLimit _ | .saveComplete _ | .commitComplete _ => true
  | .permitLineChange _ _ | .estopChange _ | .certChange _ | .deviceReset | .serviceTimeout _ | .powerDown => true
  | .authorize _ p | .start _ p | .cancel _ p | .clearFault _ p | .getSense _ p | .readRecord _ p => payloadFits p
  | .readTotals _ p | .readCounters _ p | .trunkTest _ p | .storeEnable _ p | .storeDisable _ p => payloadFits p
  | .store _ p | .readTable _ p | .readStoreStatus _ p | .resetPrepare _ p | .resetDevice _ p => payloadFits p
  | .service _ p => payloadFits p

end Sys2Proof
end

