-- ==== Sys2Proof/Tests/Slice0.lean ====
section
/-! SUPPORT. The model's own tests: the operand checks, the worked cases of the spec, one step of each command, and for
each statement with hypotheses states and operands that meet them. Expected values are the spec's, named by section. -/

namespace Sys2Proof.Tests

set_option Elab.async false

open Sys2Proof.Machine

/-! ## Operand checks -/

theorem test_wellformed_payload_at_limit :
    Instr.wellFormed (.store deviceByte (List.replicate 240 0)) = true := by decide +kernel

theorem test_wellformed_refuses_long_payload :
    RequestCode.all.all (fun code => !Instr.wellFormed (Instr.ofRequest code 0 (List.replicate 241 0))) = true := by
  decide +kernel

theorem test_wellformed_refuses_long_window : Instr.wellFormed (.answerWindowClose (List.replicate 9 0)) = false := by
  decide

theorem test_wellformed_refuses_short_late_word : Instr.wellFormed (.lateWordDrop (List.replicate 7 0)) = false := by
  decide

/-! ## Small functions on the spec's own figures -/

/-- R2: the check value over the single byte 0. -/
theorem test_crc16_reference : crc16 [0x00] = 0xFD02 := by decide +kernel

/-- R22: the CRC-8 over the single byte 1. -/
theorem test_crc8_reference : crc8 [0x01] = 0x07 := by decide +kernel

/-- R52 and 3.10: coefficient 1,200 at -18.40 degrees gives 104,008; 3.12: 1,100 at 4.95 degrees gives 101,106. -/
theorem test_ctl_worked : ctl 1200 (-1840) = 104008 ∧ ctl 1100 495 = 101106 := by decide +kernel

/-- The curve of 3.10. -/
def tCurve : List CurvePoint :=
  [{ flow := 600, factor := 100180 }, { flow := 1500, factor := 100060 }, { flow := 2400, factor := 99970 }]

/-- 3.10 and 3.13: the factor on both segments, and held beyond the ends. -/
theorem test_curve_worked :
    curveFactor tCurve 2280 = 99982 ∧ curveFactor tCurve 1000 = 100127 ∧ curveFactor tCurve 500 = 100180 ∧
    curveFactor tCurve 3000 = 99970 := by decide +kernel

/-- 4.8 and 4.9: keys (2, 1, 0) and (6, 3, 1). -/
theorem test_keys_worked :
    slotOfKey 2 1 0 = 16 ∧ keyOfSlot 16 = [2, 1, 0] ∧ slotOfKey 6 3 1 = 53 ∧ keyOfSlot 53 = [6, 3, 1] := by decide

/-- 2.10: the patterns of frame 70,000. -/
theorem test_patterns_worked :
    testPattern 70000 0 = 4464 ∧ testPattern 70000 3 = 16797 ∧ testPattern 70000 9 = 41463 := by decide

/-- 6.8: the deviations and trims of events e + 3, e + 4 and h. -/
theorem test_ratio_worked :
    deviation 1840 0 1000 = 184 ∧ trim 184 40 60 = 7 ∧ deviation 5520 40 1000 = 516 ∧ trim 516 40 60 = 20 ∧
    deviation 1203450 131020 1000 = 2427 ∧ trim 2427 40 60 = 60 ∧ feedforward 2280 1000 = 253 := by decide

/-- 7.12 and 7.13: shots of 13, 15, 24 and 360, and the classes of their replies. -/
theorem test_shots_worked :
    shotVolume (12 + 1) 12 = 13 ∧ shotVolume (12 + 3) 12 = 15 ∧ shotVolume (12 + 15) 12 = 24 ∧
    shotVolume (180 + 181) 180 = 360 ∧ classifyDone 12 13 15 = .good ∧ classifyDone 9 12 15 = .short ∧
    classifyDone 185 190 10 = .good ∧ pointAtOrAbove 80200 20000 = 100000 := by decide

/-- 5.12: the average of the ring, and the ring after an overrun of 39,370 mL. -/
theorem test_ring_worked :
    [38400, 41200, 39900].sum / 3 = 39833 ∧ pushRing [38400, 41200, 39900] 39370 = [38400, 41200, 39900, 39370] ∧
    pushRing [38400, 41200, 39900, 39370] 60000 = [41200, 39900, 39370, 60000] := by decide

/-- R154: range codes 0, 2, 6 and 7 from the bottom, 1 from the top, and its complement. -/
theorem test_protected_ranges :
    let at_ := fun (code : Fin 8) (top complement : Bool) (i : Fin 64) =>
      Protection.covers { range := code, top := top, complement := complement, mode := .switched } i
    at_ 0 false false 0 = false ∧ at_ 2 false false 1 = true ∧ at_ 2 false false 2 = false ∧
    at_ 6 false false 47 = true ∧ at_ 6 false false 48 = false ∧ at_ 7 false false 63 = true ∧
    at_ 1 true false 63 = true ∧ at_ 1 true false 62 = false ∧ at_ 1 true true 62 = true := by decide

/-! ## A configured part: arm 1 of section 4.8 -/

/-- The recipe of 4.8. -/
def tRecipe : Recipe :=
  { name := [69, 49, 48, 32, 87, 73, 78, 84, 69, 82, 32, 84], fraction := 1000, ethanolControlled := true,
    alphaEthanol := 1100, alphaBase := 1200, gain := 40, trimLimit := 60, band := 50, checkVolume := 200,
    persistence := 25,
    additives := [{ injector := 0, dose := 450, interval := 40, tolerance := 10, stop := true },
                  { injector := 2, dose := 60, interval := 20, tolerance := 15, stop := false }] }

/-- The arm entry of 4.8 and 6.8, with the wild K10 of 3.10 and the close-ahead figures of 5.12. -/
def tEntry : ArmEntry :=
  { enabled := true, wildK10 := 1234, ctrlK10 := 1234, wildCurve := 3, ctrlCurve := 4,
    settings := { lane := 0, wildMax := 2600, ctrlMax := 400, lowRate := 600, highRate := 2400, rampLimit := 15,
                  lowStart := 300, topOff := 300, initialCloseAhead := 40000, closeAheadMax := 60000,
                  overshootLimit := 5000 } }

/-- The slot table of 4.8 after its correction. -/
def tSlots : Vector SlotEntry 64 :=
  ((((((blankSlotTable.set 4 { arm := 1, role := .wildMeter }).set 5 { arm := 1, role := .wildValve }).set 6
    { arm := 1, role := .ctrlMeter }).set 7 { arm := 1, role := .ctrlValve }).set 8 { arm := 1, role := .inj 0 }).set 9
    { arm := 1, role := .inj 2 })

/-- The context of the batch of 4.8 (8,000 L on NET), its close-ahead that of 5.12. -/
def tContext : Context :=
  { recipe := tRecipe, slot := 16, settings := tEntry.settings, presetMl := 8000000, netBasis := true, txid := 77,
    metro := 211, closeAhead := 39833 }

/-- The current record of that batch in a state. -/
def tRecord (st : RecordState) : CurrentRecord :=
  { state := st, batchNumber := 18, startFrame := 5280, wildK10 := 1234, ctrlK10 := 1234, wildCurve := 3,
    ctrlCurve := 4 }

/-- An arm with that batch in a state, its entries as AUTHORIZE opened them. -/
def tOpen (st : ArmState) : Arm :=
  { Arm.afterReset with
    state := st, ctx := some tContext, batchNumber := 17, current := some (tRecord .started),
    entries := tRecipe.additives.map AdditiveEntry.opened, ratio := RatioCtl.opened 1000 }

/-- A part with the tables of arm 1 in force, its slots UP, trunk and link UP, RUN_PERMIT and PERMIT present, no frame in
progress. -/
def tBase : State :=
  { State.reset with
    rack := { RackLink.afterReset with
      up := true, last := some { number := 39, atUs := 0 },
      levels := Vector.replicate 8 { runPermit := true, dropCause := .rack, hold := false } },
    timebase := { internal := false, lastEventUs := 0, periodMs := 10 },
    lines := { permit := Vector.replicate 8 true, estop := false, certUnlocked := true },
    tables := { Tables.blank with
      recipes := Tables.blank.recipes.set 16 (Entry.loaded (some tRecipe)),
      curves := (Tables.blank.curves.set 3 (Entry.loaded tCurve)).set 4 (Entry.loaded (tCurve.take 2)),
      arms := Tables.blank.arms.set 1 (Entry.loaded tEntry), slots := Entry.loaded tSlots,
      config := Entry.loaded { DeviceConfig.defaults with slotCount := 16 } },
    trunk := { Trunk.afterReset 16 tSlots with
      frameCounter := 811, state := .up,
      slots := Vector.replicate 64 { toggle := some false, invalids := 0, up := true } } }

/-- The part with arm 1 as given. -/
def tWith (x : Arm) : State := tBase.setArm 1 x

/-- The part with arm 1 in a state of its batch. -/
def tAt (st : ArmState) : State := tWith (tOpen st)

/-- The state a command answers; the state it was given if it answers none. -/
def tAfter (c : Instr) (s : State) : State :=
  match exec c s with
  | .next t => t
  | .fault _ | .refused _ => s

/-- The sense code of a response being sent. -/
def tSense (s : State) : Nat :=
  match s.rack.transaction with
  | .sending bytes _ _ => byteAt bytes 2
  | .none | .held _ => 99

/-- The payload of a response being sent. -/
def tPayload (s : State) : List Byte :=
  match s.rack.transaction with
  | .sending bytes _ _ => bytes.drop 5
  | .none | .held _ => []

/-- A downstream rack frame with the same command byte for every arm. -/
def tFrame (number command kind : Byte) (data : List Byte) : List Byte :=
  let body := [number] ++ List.replicate 8 command ++ [kind, BitVec.ofNat 8 data.length] ++ data
  [0xD2, 0x4B] ++ body ++ checkBytes body

/-- An upstream slot word of the given seven bytes. -/
def tWord (bytes : List Byte) : List Byte := bytes ++ [crc8 bytes]

/-- The part in a frame whose next window is that of slot `i`. -/
def tWindow (s : State) (i : Nat) : State :=
  { s with trunk := { s.trunk with frameCounter := 812, answering := true, nextWindow := i } }

/-! ## One step of each command -/

/-! ### Resets and supply -/

/-- R40, R103: the frame counter is 0 and the arms are IDLE. -/
theorem test_power_up_resets :
    (tAfter .powerUp (tAt .running)).trunk.frameCounter = 0 ∧ ((tAfter .powerUp (tAt .running)).arm 1).state = .idle := by
  decide +kernel

/-- The part with a device config in its array whose period is 20 ms. -/
def tStoredConfig : State :=
  { tBase with nv := { Nonvolatile.blank with tables := { Nonvolatile.blank.tables with
      config := .written (sealContent (.config { DeviceConfig.defaults with periodMs := 20, slotCount := 32 })) } } }

/-- R147: what the array holds is in force after a reset. -/
theorem test_rst_loads_config :
    (tAfter .rst tStoredConfig).timebase.periodMs = 20 ∧ (tAfter .rst tStoredConfig).trunk.slotCount = 32 := by
  decide +kernel

/-- R147: an entry whose check word is wrong loads as the fallback value, flagged. -/
theorem test_rst_flags_damaged_config :
    let s := { tBase with nv := { Nonvolatile.blank with tables := { Nonvolatile.blank.tables with
      protection := .written [6, 0, 1, 0, 0, 0, 0, 0] } } }
    (tAfter .rst s).tables.protection = { work := Protection.fallback, differs := false, invalid := true } := by
  decide +kernel

/-- R159: the reset follows the frame that carried the response, and nothing happens before. -/
theorem test_device_reset_when_due :
    (tAfter .deviceReset { tBase with rack := { tBase.rack with resetDue := true } }).trunk.frameCounter = 0 ∧
    (tAfter .deviceReset tBase).trunk.frameCounter = 811 := by decide +kernel

/-- The save image of a test. -/
def tImage (seq : Nat) : SaveImage :=
  { seq := seq, wild := { grossL := 1204337, grossMl := 850, netL := 1228906, netMl := 720 }, ctrl := MeterTotals.zero }

/-- R144: a loss of supply during a save leaves its copy failing. -/
theorem test_power_down_tears_save :
    let s := { tBase with store := { tBase.store with underWay := some (.save 1 1 (tImage 9)) } }
    (tAfter .powerDown s).nv.saves[1].copy1 = .failing ∧ (tAfter .powerDown s).powered = false := by decide +kernel

/-! ### The rack link -/

/-- R1, R6: an accepted frame is echoed. -/
theorem test_frame_accepted :
    let t := tAfter (.rackFrameReceived 10000 (tFrame 40 1 0 [])) tBase
    t.rack.last = some { number := 40, atUs := 10000 } ∧ t.rack.upstream.take 3 = [0xD2, 0xB4, 40] ∧
    t.trunk.frameCounter = 812 := by decide +kernel

/-- R1, R3: a frame less than half a period after the last one is counted and discarded. -/
theorem test_frame_too_early :
    let t := tAfter (.rackFrameReceived 4999 (tFrame 40 0 0 [])) tBase
    t.rack.errors = 1 ∧ t.rack.last = some { number := 39, atUs := 0 } ∧ t.rack.levels[1].runPermit = true := by
  decide +kernel

/-- R5: 15 ms after the last frame at a period of 10 ms. -/
theorem test_rack_timeout_goes_internal :
    let t := tAfter .timebaseRackTimeout tBase
    t.timebase.internal = true ∧ t.nowUs = 15000 ∧ t.rack.silence = 1 ∧ t.rack.upstream.getD 2 0 = 0xFF := by
  decide +kernel

/-- R40: the first frame after a reset is frame 1, one period after the reset. -/
theorem test_internal_period_first_frame :
    let t := tAfter .timebaseInternalPeriod State.reset
    t.trunk.frameCounter = 1 ∧ t.nowUs = 10000 ∧ t.trunk.downstream.length = 391 := by decide +kernel

/-- R10: the link goes DOWN, and a flowing batch ends with LINK_LOST. -/
theorem test_link_loss_ends_batch :
    let s := { tAt .running with rack := { tBase.rack with silence := 49 } }
    (tAfter .linkLoss s).rack.up = false ∧ ((tAfter .linkLoss s).arm 1).endReason = some .linkLost := by decide +kernel

/-! ### The trunk -/

/-- The wild meter of 3.10 before frame 812. -/
def tMeter : Meter :=
  { Meter.afterReset { grossL := 1204337, grossMl := 850, netL := 1228906, netMl := 720 } with
    lastTotal := some 65510, lastFrame := 811, pulseRes := 500, grossRes := 41000, netRes := 77500,
    window := [379, 380, 380, 380, 380, 380, 380, 380], flow := 2280, factor := 99982, temp := some (-1842) }

/-- The word of 3.10: total 21, temperature -18.40 degrees, status OK. -/
def tMeterWord : List Byte := tWord [0x01, 0x00, 0x15, 0xF8, 0xD0, 0x00, 0x00]

/-- The part of 3.10 with arm 1 in a state, the window of its wild meter next. -/
def tMeterState (st : ArmState) : State := tWindow ((tAt st).setMeter 1 .wild tMeter) 4

/-- 3.10, steps 3 to 9 and 11. -/
theorem test_window_converts_sample :
    let m := (tAfter (.answerWindowClose tMeterWord) (tMeterState .running)).meter 1 .wild
    m.pulseRes = 346 ∧ m.flow = 2280 ∧ m.factor = 99982 ∧ m.grossRes = 34142 ∧ m.netRes = 4548 ∧
    m.totals = { grossL := 1204338, grossMl := 231, netL := 1228907, netMl := 117 } := by decide +kernel

/-- 3.10, step 10. -/
theorem test_window_fills_account :
    ((tAfter (.answerWindowClose tMeterWord) (tMeterState .running)).arm 1).wild =
      { gross := 381, net := 397, weight := -1840 * 381, lastFactor := 99982 } := by decide +kernel

/-- R21: a late word changes nothing. -/
theorem test_late_word_dropped :
    (tAfter (.lateWordDrop tMeterWord) (tMeterState .running)).meter 1 .wild = tMeter := by decide +kernel

/-- 2.9: frame 225 takes slot 6 to LOST, and the controlled meter is marked. -/
theorem test_slot_lost :
    let s := { tBase with trunk := { tBase.trunk with
      slots := tBase.trunk.slots.set 6 { toggle := some true, invalids := 24, up := true } } }
    let t := tAfter (.slotLost 6) s
    t.trunk.slots[6] = { toggle := some true, invalids := 25, up := false } ∧ (t.meter 1 .ctrl).lost = true := by
  decide +kernel

/-- R27, R95: a flowing batch ends with TRUNK_LOST. -/
theorem test_trunk_down :
    let t := tAfter .trunkDown { tAt .running with trunk := { tBase.trunk with silence := 24, staleErrors := 3 } }
    t.trunk.state = .down ∧ t.trunk.staleErrors = 0 ∧ (t.arm 1).endReason = some .trunkLost := by decide +kernel

/-- 2.10: the test ends with silence count 0. -/
theorem test_test_end :
    let s := { tBase with trunk := { tBase.trunk with
      state := .test, test := { state := .running, remaining := 0, framesRun := 3, errors := 2 } } }
    (tAfter .testEnd s).trunk.state = .up ∧
    (tAfter .testEnd s).trunk.test = { state := .complete, remaining := 0, framesRun := 3, errors := 2 } := by
  decide +kernel

/-! ### Batch events -/

/-- The part with arm 1 pending in the open window of lane 0, one frame left. -/
def tPending : State :=
  { tAt .startPending with
    windows := tBase.windows.set 0 { isOpen := true, remaining := 1, pending := [1] } }

/-- 5.11: the pending arm passes the start conditions, its batch number rises from 17 to 18. -/
theorem test_window_expiry_starts :
    let t := tAfter (.startWindowExpiry 0) tPending
    (t.arm 1).state = .running ∧ (t.arm 1).batchNumber = 18 ∧ t.windows[0].isOpen = false := by decide +kernel

/-- 3.12: age 300 against a hold limit of 300. -/
theorem test_temp_lost :
    let s := (tAt .running).setMeter 1 .ctrl { tMeter with age := 300 }
    ((tAfter (.tempLost 1 .ctrl) s).arm 1).endReason = some .tempLost := by decide +kernel

/-- A RUNNING batch in mode RATIO with the given net totals and out-of-band count. -/
def tRatioArm (wild ctrl count : Nat) : Arm :=
  { tOpen .running with
    wild := { gross := wild, net := wild, weight := 0, lastFactor := 100000 },
    ctrl := { gross := ctrl, net := ctrl, weight := 0, lastFactor := 100000 },
    ratio := { RatioCtl.opened 1000 with outCount := count } }

/-- 6.8: the 25th frame with a fraction of 949 or less raises RATIO_FAULT. -/
theorem test_ratio_fault :
    ((tAfter (.ratioFault 1) (tWith (tRatioArm 905100 94900 24))).arm 1).sense = .ratioFault ∧
    ((tAfter (.ratioFault 1) (tWith (tRatioArm 904900 95100 24))).arm 1).state = .running := by decide +kernel

/-- The entry of 7.12 before frame f + 100, its shot of age 99. -/
def tOldEntry (bad : Nat) (stop : Bool) : AdditiveEntry :=
  { AdditiveEntry.opened { injector := 2, dose := 60, interval := 20, tolerance := 15, stop := stop } with
    injected := 21, shot := some { volume := 24, toggle := false, age := 99 }, bad := bad, good := 1, short := 1,
    missed := 1 }

/-- The arm that holds that entry. -/
def tOldShot (st : ArmState) (bad : Nat) (stop : Bool) : Arm := { tOpen st with entries := [tOldEntry bad stop] }

/-- 7.12, frame f + 100: MISSED, the third bad shot, FAILED under CONTINUE. -/
theorem test_shot_timeout :
    let x := (tAfter (.shotTimeout 1 0) (tWith (tOldShot .running 2 false))).arm 1
    x.additiveFault = true ∧ x.state = .running ∧
    x.entries.map (fun e => (e.state, e.bad, e.injected, e.missed)) = [(.failed, 3, 21, 2)] := by decide +kernel

/-- R70, R92: 1,800 s at 10 ms are 180,000 frames. -/
theorem test_hold_timeout :
    let s := fun n => tWith { tOpen .held with holdTimer := n }
    ((tAfter (.holdTimeout 1) (s 179999)).arm 1).endReason = some .holdTimeout ∧
    ((tAfter (.holdTimeout 1) (s 179998)).arm 1).state = .held := by decide +kernel

/-- A CLOSING batch of arm 1 with a reason, as in 5.12: 8,000,420 mL delivered, 7,961,050 mL at close. -/
def tClosing (reason : EndCause) (secondary : List EndCause) : Arm :=
  { tRatioArm 7200378 800042 0 with
    state := .closing, endReason := some reason, secondary := secondary, deliveredAtClose := 7961050, zeroCount := 19,
    settleAge := 499, ring := [38400, 41200, 39900], entries := [] }

/-- Both meters of arm 1 have a sample of indicated volume 0 in this frame. -/
def tStill (s : State) : State :=
  (s.setMeter 1 .wild { tMeter with sample := some 0 }).setMeter 1 .ctrl { tMeter with sample := some 0 }

/-- 5.12: the 20th zero frame finalizes; overrun 39,370 mL enters the ring. -/
theorem test_arm_settled :
    let x := (tAfter (.armSettled 1) (tStill (tWith (tClosing .normal [])))).arm 1
    x.state = .idle ∧ x.ring = [38400, 41200, 39900, 39370] ∧
    x.last.map (fun r => (r.overrun, r.overshoot, r.overshootFlag)) = some (39370, 420, false) := by decide +kernel

/-- R98: a batch not settled at the limit of 500 finalizes with VALVE_LEAK. -/
theorem test_settle_limit :
    let x := (tAfter (.settleLimit 1) (tWith (tClosing .normal []))).arm 1
    x.state = .faulted ∧ x.last.map (·.endReason) = some (some .valveLeak) ∧ x.ring = [38400, 41200, 39900] := by
  decide +kernel

/-! ### The store engine -/

/-- 9.9 at 70 ms: save 1 under way, save 5 and a commit of curve 9 waiting. -/
def tSaving : State :=
  { tBase with
    nv := { Nonvolatile.blank with metroCounter := 211 },
    store := { tBase.store with
      status := .busy, underWay := some (.save 1 0 (tImage 7)), queue := [.save 5, .commit (.curve 9 tCurve)] } }

/-- 9.9 at 70 ms: save 1 completes, save 5 begins. -/
theorem test_save_complete :
    let t := tAfter (.saveComplete true) tSaving
    t.nv.saves[1].copy0 = .holds (tImage 7) ∧ t.store.latest[1] = some 0 ∧
    t.store.underWay = some (.save 5 0 { seq := 1, wild := MeterTotals.zero, ctrl := MeterTotals.zero }) := by
  decide +kernel

/-- The part with a commit of curve 9 under way. -/
def tCommitting : State :=
  { tBase with store := { tBase.store with status := .busy, underWay := some (.commit (.curve 9 tCurve)) } }

/-- R153: a failed commit leaves the entry failing its check and store status FAILED. -/
theorem test_commit_complete :
    let t := tAfter (.commitComplete false) tCommitting
    t.store.status = .failed ∧ t.nv.tables.curves[9] = .failing ∧ t.tables.curves[9].invalid = true := by decide +kernel

/-! ### Lines -/

/-- 5.11 after frame 5,150: the arm leaves the set, which closes the window. -/
theorem test_permit_lost_returns_pending :
    let t := tAfter (.permitLineChange 1 false) tPending
    (t.arm 1).state = .authorized ∧ (t.arm 1).sense = .permitAbsent ∧ t.windows[0].isOpen = false := by decide +kernel

/-- R94: ESTOP ends a flowing batch. -/
theorem test_estop_ends_batch :
    ((tAfter (.estopChange true) (tAt .holding)).arm 1).endReason = some .estop := by decide +kernel

/-- R155: the switch position is held. -/
theorem test_cert_change : (tAfter (.certChange false) tBase).lines.certUnlocked = false := by decide +kernel

/-! ### Requests -/

/-- The AUTHORIZE of 4.8: key (2, 1, 0), 8,000 L, NET. -/
def tAuthorize : Instr := .authorize 1 (authorizePayload 1 2 1 0 8000 1 77)

/-- 4.8: accepted; 8,000,000 mL on NET, fraction of the controlled stream 1,000. -/
theorem test_authorize_accepted :
    let x := (tAfter tAuthorize tBase).arm 1
    x.state = .authorized ∧
    x.ctx.map (fun c => (c.presetMl, c.netBasis, c.slot.val, c.recipe.ctrlFraction)) =
      some (8000000, true, 16, 1000) ∧
    tSense (tAfter tAuthorize tBase) = 0 := by decide +kernel

/-- 4.8: INJ2 in slots 9 and 10 is refused SLOT_CONFLICT, code 9. -/
theorem test_authorize_slot_conflict :
    let s := { tBase with tables := { tBase.tables with
      slots := Entry.loaded (tSlots.set 10 { arm := 1, role := .inj 2 }) } }
    tSense (tAfter tAuthorize s) = 9 ∧ ((tAfter tAuthorize s).arm 1).sense = .slotConflict := by decide +kernel

/-- R81, R82: a START without join enters RUNNING. -/
theorem test_start_enters_running :
    ((tAfter (.start 1 [0]) (tAt .authorized)).arm 1).state = .running ∧
    ((tAfter (.start 1 [0]) (tAt .authorized)).arm 1).startFrame = 811 := by decide +kernel

/-- 5.11: a START of a pending arm is refused WRONG_STATE, code 2. -/
theorem test_start_wrong_state : tSense (tAfter (.start 1 [1]) tPending) = 2 := by decide +kernel

/-- 5.11, last paragraph: CANCEL empties the set and the window closes. -/
theorem test_cancel_closes_window :
    ((tAfter (.cancel 1 []) tPending).arm 1).state = .authorized ∧
    (tAfter (.cancel 1 []) tPending).windows[0].isOpen = false := by decide +kernel

/-- R101: a FAULTED arm goes IDLE. -/
theorem test_clear_fault :
    ((tAfter (.clearFault 1 []) (tWith { Arm.afterReset with state := .faulted })).arm 1).state = .idle := by
  decide +kernel

/-- 8.7: the code UNAUTHORIZED_FLOW is returned and cleared. -/
theorem test_get_sense :
    let s := tWith { Arm.afterReset with sense := .unauthorizedFlow }
    tPayload (tAfter (.getSense 1 []) s) = [28] ∧ ((tAfter (.getSense 1 []) s).arm 1).sense = .none := by decide +kernel

/-- 8.7: the current record of an IDLE arm is the single byte 0. -/
theorem test_read_record_absent : tPayload (tAfter (.readRecord 1 [0]) tBase) = [0] := by decide +kernel

/-- Section 8.1: an open batch's record has 93 bytes, its name and 18 for each item. -/
theorem test_read_record_length :
    (tPayload (tAfter (.readRecord 1 [0]) (tAt .running))).length = 93 + 12 + 36 := by decide +kernel

/-- R142: 24 bytes for each arm. -/
theorem test_read_totals :
    (tPayload (tAfter (.readTotals 255 []) (tBase.setMeter 1 .wild tMeter))).length = 192 ∧
    numAt (tPayload (tAfter (.readTotals 255 []) (tBase.setMeter 1 .wild tMeter))) 24 4 = 1204337 := by decide +kernel

/-- 2.10: error count 2, frames run 3, COMPLETE, trunk UP, and the counts cleared. -/
theorem test_read_counters :
    let s := { tBase with trunk := { tBase.trunk with
      test := { state := .complete, remaining := 0, framesRun := 3, errors := 2 } } }
    (tPayload (tAfter (.readCounters 255 []) s)).take 9 = [0, 0, 0, 0, 2, 0, 3, 2, 1] ∧
    (tAfter (.readCounters 255 []) s).trunk.test = { state := .none, remaining := 0, framesRun := 0, errors := 0 } := by
  decide +kernel

/-- 2.10: a count of 3 is accepted. -/
theorem test_trunk_test :
    (tAfter (.trunkTest 255 [0, 3]) tBase).trunk.state = .test ∧
    (tAfter (.trunkTest 255 [0, 3]) tBase).trunk.test =
      { state := .running, remaining := 3, framesRun := 0, errors := 0 } := by decide +kernel

/-- 9.9 at 30 ms: STORE_ENABLE is refused STORE_BUSY, code 19. -/
theorem test_store_enable :
    (tAfter (.storeEnable 255 [0]) tBase).store.latch = .persist ∧
    tSense (tAfter (.storeEnable 255 [0]) tSaving) = 19 := by decide +kernel

/-- The part with the latch set. -/
def tLatched (l : Latch) (s : State) : State := { s with store := { s.store with latch := l } }

/-- R149: STORE_DISABLE clears the latch. -/
theorem test_store_disable : (tAfter (.storeDisable 255 []) (tLatched .working tBase)).store.latch = .clear := by
  decide +kernel

/-- 9.9 at 20 ms: curve 9 is stored, the store is BUSY, the latch is clear. -/
theorem test_store_curve :
    let t := tAfter (.store 255 (encodeContent (.curve 9 tCurve))) (tLatched .persist tBase)
    t.tables.curves[9] = Entry.loaded tCurve ∧ t.store.status = .busy ∧ t.store.latch = .clear ∧
    t.nv.metroCounter = 1 := by decide +kernel

/-- R149, R150: CERT LOCKED refuses a curve, code 21, and clears the latch. -/
theorem test_store_cert_locked :
    let s := tLatched .persist { tBase with lines := { tBase.lines with certUnlocked := false } }
    let t := tAfter (.store 255 (encodeContent (.curve 9 tCurve))) s
    tSense t = 21 ∧ t.store.latch = .clear ∧ t.tables.curves[9].work = [] := by decide +kernel

/-- R158, section 9.2: curve 3 reads as its flags byte, target, index, count and points. -/
theorem test_read_table :
    (tPayload (tAfter (.readTable 255 [1, 3]) tBase)).take 10 = [0, 1, 3, 3, 0x02, 0x58, 0x00, 0x01, 0x87, 0x54] := by
  decide +kernel

/-- 9.9 at 70 ms, before the save completes: BUSY, three operations, counter 211. -/
theorem test_read_store_status : tPayload (tAfter (.readStoreStatus 255 []) tSaving) = [1, 0, 0, 3, 0, 211, 0] := by
  decide +kernel

/-- R159: the prepared flag is set. -/
theorem test_reset_prepare : (tAfter (.resetPrepare 255 []) tBase).store.prepared = true := by decide +kernel

/-- The part with the prepared flag set. -/
def tPrepared (s : State) : State := { s with store := { s.store with prepared := true } }

/-- R159: without RESET_PREPARE it is refused RESET_NOT_PREPARED, code 27; with it, accepted. -/
theorem test_reset_device :
    tSense (tAfter (.resetDevice 255 []) tBase) = 27 ∧ tSense (tAfter (.resetDevice 255 []) (tPrepared tBase)) = 0 := by
  decide +kernel

/-- The part with alias 3 of arm 1 on slot 6, the controlled meter. -/
def tAliased (s : State) : State :=
  { s with tables := { s.tables with
      aliases := s.tables.aliases.set 1 (Entry.loaded (blankAliasTable.set 3 (some 6))) } }

/-- 10.4: a READ of three bytes is accepted while the arm runs. -/
theorem test_service_read :
    let t := tAfter (.service 1 [3, 0, 7, 8, 9]) (tAliased (tAt .running))
    t.rack.transaction = .held 1 ∧ t.transfers[1].phase = .request ∧ t.transfers[1].slot = 6 := by decide +kernel

/-- 10.4, last paragraph: a WRITE with CERT UNLOCKED and an open batch is refused BATCHES_OPEN, code 17. -/
theorem test_service_write_batch_open :
    tSense (tAfter (.service 1 [3, 1, 7, 8, 9]) (tAliased (tAt .running))) = 17 := by decide +kernel

/-- A transfer of arm 1 in REPLY at age 99. -/
def tWaiting : State :=
  { tBase with
    rack := { tBase.rack with transaction := .held 1 },
    transfers := tBase.transfers.set 1
      { Transfer.accepted 6 false [7, 8, 9] with phase := .reply, classSent := true, next := 3, age := 99 } }

/-- R166: SERVICE_TIMEOUT, code 26. -/
theorem test_service_timeout :
    tSense (tAfter (.serviceTimeout 1) tWaiting) = 26 ∧ (tAfter (.serviceTimeout 1) tWaiting).transfers[1].phase = .idle := by
  decide +kernel

/-- A step takes the command that has waited longest. -/
theorem test_step_first_in_first_out :
    (match step { tBase with pending := [.certChange false, .estopChange true] } with
      | .next t => (t.lines.certUnlocked, t.lines.estop, t.pending)
      | .fault _ | .refused _ => (true, true, [])) = (false, false, [.estopChange true]) := by decide +kernel

/-- The table gives no row any bits: no word spells a command, and the state is left as it is. -/
theorem test_no_word_spells_a_command : decodeTableWord 8 1 = none ∧ tBase.withFetchWord 8 1 = tBase := by
  exact ⟨rfl, rfl⟩

/-! ## States and operands that meet the hypotheses of the statements

One theorem for each statement with hypotheses, clause by clause; `witness_<statement>`. -/

/-! ### Steps, resets, supply -/

theorem witness_StepRunsFrontCommand :
    ({ tBase with pending := [.certChange false, .rst] } : State).pending = .certChange false :: [.rst] := rfl

theorem witness_ResetCausesAlike :
    ({ tBase with rack := { tBase.rack with resetDue := true } } : State).powered = true ∧
    ({ tBase with rack := { tBase.rack with resetDue := true } } : State).rack.resetDue = true := ⟨rfl, rfl⟩

/-- What each item of a list is, by evaluation. -/
theorem test_each {α : Type} {l : List α} {P : Nat → α → Prop} (h : ∀ k : Fin l.length, P k.val l[k]) :
    ∀ (k : Nat) (x : α), l[k]? = some x → P k x := by
  intro k x e
  obtain ⟨hk, rfl⟩ := List.getElem?_eq_some_iff.1 e
  exact h ⟨k, hk⟩

/-- The config of `tStoredConfig`. -/
def tConfig : DeviceConfig := { DeviceConfig.defaults with periodMs := 20, slotCount := 32 }

theorem test_config_carried : (Content.config tConfig).CarriedBy (encodeContent (.config tConfig)) := by
  unfold Content.CarriedBy DeviceConfig.CarriedBy
  decide +kernel

/-- The part with one entry of its array as given. -/
def tEntryHolds (e : NvEntry) : State :=
  { tBase with nv := { Nonvolatile.blank with tables := { Nonvolatile.blank.tables with config := e } } }

/-- Written in range while a commit of another entry is under way, never written, torn, left failing, and written with a
field out of range or with another check word. -/
theorem witness_EntriesLoad :
    let bytes := encodeContent (.config tConfig) ++ checkBytes (encodeContent (.config tConfig))
    let busy := { tStoredConfig with store := tCommitting.store }
    (busy.powered = true ∧ (¬ ∃ c, busy.store.underWay = some (.commit c) ∧ c.key = .config) ∧
      busy.nv.tables.get .config = .written bytes ∧ (Content.config tConfig).InRange ∧
      (Content.config tConfig).key = .config ∧
      ∃ body, (Content.config tConfig).CarriedBy body ∧ bytes = body ++ checkBytes body) ∧
    ((¬ ∃ c, busy.store.underWay = some (.commit c) ∧ c.key = .protection) ∧
      busy.nv.tables.get .protection = .unwritten) ∧
    (∃ c, tCommitting.store.underWay = some (.commit c) ∧ c.key = .curve 9) ∧
    (tEntryHolds .failing).nv.tables.get .config = .failing ∧
    (∀ damaged ∈ [[5, 0, 0, 20] ++ bytes.drop 4, encodeContent (.config { tConfig with periodMs := 11 }) ++
        checkBytes (encodeContent (.config { tConfig with periodMs := 11 }))],
      (tEntryHolds (.written damaged)).nv.tables.get .config = .written damaged) ∧
    ∀ c : Content, ¬ (c.InRange ∧ c.key = .config ∧ ∃ body, c.CarriedBy body ∧
      encodeContent (.config { tConfig with periodMs := 11 }) ++
        checkBytes (encodeContent (.config { tConfig with periodMs := 11 })) = body ++ checkBytes body) := by
  refine ⟨⟨rfl, ?_, rfl, (Content.inRange_iff _).2 (by decide +kernel), rfl, _, test_config_carried, rfl⟩, ⟨?_, rfl⟩,
    ⟨_, rfl, rfl⟩, rfl, fun _ _ => rfl, ?_⟩
  · rintro ⟨c, e, h⟩
    cases e
    cases h
  · rintro ⟨c, e, h⟩
    cases e
    cases h
  · rintro c ⟨h, k, body, hc, e⟩
    cases c with
    | config d =>
      obtain ⟨-, -, hl, hp, -⟩ := hc
      have hb : body = encodeContent (.config { tConfig with periodMs := 11 }) :=
        (List.append_inj_left e (by rw [hl]; decide +kernel)).symm
      have : d.periodMs = 11 := by rw [← hp, hb]; decide +kernel
      rcases h.1 with h | h <;> omega
    | _ => cases k

/-- A save of arm 1 under way with nothing waiting, its other copy one behind. -/
def tLastSave : State :=
  { tBase with
    nv := { Nonvolatile.blank with
      saves := Nonvolatile.blank.saves.set 1 { copy0 := .unwritten, copy1 := .holds (tImage 4294967295) } },
    store := { tBase.store with
      underWay := some (.save 1 0 (tImage 0)), latest := tBase.store.latest.set 1 (some 1) } }

theorem witness_CompletedWritesSurviveReset :
    (tCommitting.powered = true ∧ tCommitting.store.QueueGood ∧
      tCommitting.store.underWay = some (.commit (.curve 9 tCurve)) ∧ (Content.curve 9 tCurve).InRange) ∧
    (tLastSave.powered = true ∧ tLastSave.store.underWay = some (.save 1 0 (tImage 0)) ∧ tLastSave.store.queue = [] ∧
      tLastSave.nv.saves[1].get (1 - 0) = .holds (tImage 4294967295) ∧
      (tImage 0).seq = ((tImage 4294967295).seq + 1) % 4294967296) := by
  refine ⟨⟨rfl, ?_, rfl, (Content.inRange_iff _).2 (by decide +kernel)⟩, rfl, rfl, rfl, rfl, rfl⟩
  unfold StoreCtl.QueueGood
  decide +kernel

/-! ### The store engine and the Table Store -/

/-- A save under way with each kind of operation waiting first, and with none. -/
theorem witness_SaveCompletes :
    (tSaving.powered = true ∧ tSaving.store.underWay = some (.save 1 0 (tImage 7)) ∧
      tSaving.store.queue = .save 5 :: [.commit (.curve 9 tCurve)]) ∧
    (tLastSave.store.underWay = some (.save 1 0 (tImage 0)) ∧ tLastSave.store.queue = []) ∧
    ({ tSaving.store with queue := tSaving.store.queue.tail } : StoreCtl).queue = .commit (.curve 9 tCurve) :: [] := by
  exact ⟨⟨rfl, rfl, rfl⟩, ⟨rfl, rfl⟩, rfl⟩

theorem witness_CommitCompletes :
    tCommitting.powered = true ∧ tCommitting.store.underWay = some (.commit (.curve 9 tCurve)) := ⟨rfl, rfl⟩

theorem witness_QueueStaysGood :
    tSaving.store.QueueGood ∧ ∃ t, step { tSaving with pending := [.saveComplete true] } = .next t := by
  refine ⟨?_, _, rfl⟩
  unfold StoreCtl.QueueGood
  decide +kernel

theorem witness_MetroCounterNeverDecreases :
    ({ tBase with nv := { tBase.nv with metroCounter := 65535 } } : State).nv.metroCounter ≤ 65535 ∧
    ∃ t, step { tBase with nv := { tBase.nv with metroCounter := 65535 }, pending := [.readTotals 255 []] } =
      .next t := ⟨by decide, _, rfl⟩

/-- The part with a protection record. -/
def tProtected (s : State) (code : Fin 8) (mode : ProtMode) : State :=
  { s with tables := { s.tables with
      protection := Entry.loaded { range := code, top := false, complement := false, mode := mode } } }

theorem witness_ProtectedRecipeKept :
    (tProtected tBase 7 .permanent).tables.protection.work.Protects 16 ∧
    ∃ t, exec (.store 255 (encodeContent (.recipe 16 none))) (tProtected tBase 7 .permanent) = .next t := by
  exact ⟨by unfold Protection.Protects; decide +kernel, _, rfl⟩

/-- A recipe at the limits: a name of 16 characters, four additive items. -/
def tFullRecipe : Recipe :=
  { tRecipe with
    name := List.replicate 16 126, fraction := 9000,
    additives := [0, 1, 2, 3].map (fun k => { injector := k, dose := 2000, interval := 1000, tolerance := 20, stop := true }) }

theorem test_recipe_carried : (Content.recipe 63 (some tFullRecipe)).CarriedBy (encodeContent (.recipe 63 (some tFullRecipe))) := by
  refine ⟨by decide +kernel, by decide +kernel, by decide +kernel, by decide +kernel, by decide +kernel, by decide +kernel,
    by decide +kernel, by decide +kernel, test_each ?_⟩
  unfold AdditiveItem.CarriedAt
  decide +kernel

theorem test_curve_carried : (Content.curve 3 tCurve).CarriedBy (encodeContent (.curve 3 tCurve)) :=
  ⟨by decide +kernel, by decide +kernel, by decide +kernel, by decide +kernel, test_each (by decide +kernel)⟩

/-- Section 9.2: a disabled entry with lane 2, low rate 513 and overshoot limit 65,537 written out byte by byte. -/
theorem test_arm_entry_carried :
    (Content.armEntry 6 { ArmEntry.cleared with
      wildCurve := 15, settings := { ArmEntry.cleared.settings with lane := 2, lowRate := 513, overshootLimit := 65537 } }).CarriedBy
      ([2, 6, 0, 0, 2, 0, 100, 0, 100, 15, 0, 0, 0, 0, 0, 2, 1, 0, 0, 0, 1, 0, 0, 0, 0, 0, 0, 0, 0, 0, 0, 0, 0] ++
        [0, 1, 0, 1]) := by
  unfold Content.CarriedBy ArmEntry.CarriedBy
  decide +kernel

/-- R149, R161: the other targets, the bytes written out. -/
theorem test_small_contents_carried :
    (Content.protection { range := 5, top := true, complement := false, mode := .permanent }).CarriedBy [6, 0, 5, 1, 0, 3] ∧
    (Content.aliasTable 7 ((blankAliasTable.set 0 (some 63)).set 7 (some 0))).CarriedBy
      [4, 7, 63, 255, 255, 255, 255, 255, 255, 0] ∧
    (Content.recipe 16 none).CarriedBy [0, 16, 0] ∧
    (Content.slotTable (blankSlotTable.set 1 { arm := 7, role := .inj 3 })).CarriedBy
      ([3, 0, 0, 0, 7, 8] ++ List.replicate 124 0) := by
  unfold Content.CarriedBy Protection.CarriedBy
  decide +kernel

theorem witness_ContentRoundTrips :
    ((Content.recipe 63 (some tFullRecipe)).InRange ∧ (Content.curve 15 []).InRange ∧
      (Content.armEntry 1 tEntry).InRange ∧ (Content.slotTable tSlots).InRange ∧
      (Content.config DeviceConfig.defaults).InRange) ∧
    storeLengthRight (encodeContent (.recipe 63 (some tFullRecipe))) ∧ storeLengthRight [1, 16, 0] := by
  simp only [Content.inRange_iff, storeLengthRight_iff]
  decide +kernel

/-- A commit that begins at once, one that waits behind a save, a WORKING store, and a K10 that changes. -/
theorem witness_StoreAccepted :
    let c := Content.armEntry 1 { tEntry with wildK10 := 100 }
    let waiting := tLatched .persist tLastSave
    ((tLatched .persist tBase).Ready ∧ c.InRange ∧ (tLatched .persist tBase).store.latch ≠ .clear ∧
      (tLatched .persist tBase).store.status ≠ .busy ∧ ¬ (tLatched .persist tBase).StoreBadMode c ∧
      ¬ (tLatched .persist tBase).StoreProtected c ∧ ¬ (tLatched .persist tBase).StoreCertLocked c ∧
      ¬ (tLatched .persist tBase).StoreBatchesOpen c ∧ (tLatched .persist tBase).store.underWay = none ∧
      c.key = .armEntry 1 ∧ (tBase.armEntry 1).k10 .wild ≠ 100) ∧
    (waiting.Ready ∧ waiting.store.status ≠ .busy ∧ ¬ waiting.StoreBadMode c ∧ ¬ waiting.StoreProtected c ∧
      ¬ waiting.StoreCertLocked c ∧ ¬ waiting.StoreBatchesOpen c ∧ waiting.store.underWay ≠ none) ∧
    ((tLatched .working tBase).Ready ∧ (tLatched .working tBase).store.latch = .working ∧
      (Content.recipe 16 none).InRange ∧ ¬ (tLatched .working tBase).StoreBadMode (.recipe 16 none) ∧
      ¬ (tLatched .working tBase).StoreProtected (.recipe 16 none) ∧
      ¬ (tLatched .working tBase).StoreCertLocked (.recipe 16 none) ∧
      ¬ (tLatched .working tBase).StoreBatchesOpen (.recipe 16 none)) := by
  simp only [Content.inRange_iff, ← State.badMode_iff, ← State.protectedStore_iff, ← State.certBars_iff, ← State.batchesBar_iff]
  unfold State.Ready
  decide +kernel

theorem witness_StoreAccepted_carried :
    let c := Content.armEntry 1 { tEntry with wildK10 := 100 }
    c.CarriedBy (encodeContent c) ∧ (Content.recipe 16 none).CarriedBy [0, 16, 0] ∧
    (Content.protection { Protection.fallback with mode := .permanent }).CarriedBy [6, 0, 7, 0, 0, 3] := by
  unfold Content.CarriedBy ArmEntry.CarriedBy Protection.CarriedBy
  decide +kernel

/-- Each condition of R150 with those before it not holding. -/
theorem witness_StoreRefused :
    let curve := encodeContent (.curve 3 tCurve)
    let permanent := Content.protection { Protection.fallback with mode := .permanent }
    let keyed := tLatched .persist (tProtected tBase 7 .permanent)
    let locked := tLatched .persist { tBase with lines := { tBase.lines with certUnlocked := false } }
    let running := tLatched .persist (tAt .running)
    (tBase.Ready ∧ storeLengthRight curve ∧ curve.length ≤ 240 ∧ tBase.store.latch = .clear) ∧
    ((tLatched .persist tSaving).Ready ∧ (tLatched .persist tSaving).store.latch ≠ .clear ∧
      (tLatched .persist tSaving).store.status = .busy) ∧
    (storeLengthRight [1, 16, 0] ∧ (tLatched .working tBase).Ready ∧
      (tLatched .working tBase).store.latch ≠ .clear ∧ (tLatched .working tBase).store.status ≠ .busy) ∧
    (permanent.InRange ∧ (tLatched .working tBase).StoreBadMode permanent) ∧
    ((Content.recipe 16 none).InRange ∧ keyed.Ready ∧
      ¬ keyed.StoreBadMode (.recipe 16 none) ∧ keyed.StoreProtected (.recipe 16 none)) ∧
    ((Content.curve 3 tCurve).InRange ∧ locked.Ready ∧ ¬ locked.StoreBadMode (.curve 3 tCurve) ∧
      ¬ locked.StoreProtected (.curve 3 tCurve) ∧ locked.StoreCertLocked (.curve 3 tCurve)) ∧
    (running.Ready ∧ ¬ running.StoreBadMode (.curve 3 tCurve) ∧ ¬ running.StoreProtected (.curve 3 tCurve) ∧
      ¬ running.StoreCertLocked (.curve 3 tCurve) ∧ running.StoreBatchesOpen (.curve 3 tCurve)) := by
  simp only [Content.inRange_iff, storeLengthRight_iff, ← State.badMode_iff, ← State.protectedStore_iff, ← State.certBars_iff, ← State.batchesBar_iff]
  unfold State.Ready
  decide +kernel

/-- Conditions of R150 step 3: an index of 16, a range code of 8 and a period of 11 ms are carried by no content in range. -/
theorem witness_StoreRefused_bad_field :
    (∀ c : Content, c.InRange → ¬ c.CarriedBy [1, 16, 0]) ∧ (∀ c : Content, c.InRange → ¬ c.CarriedBy [6, 0, 8, 0, 0, 0]) ∧
    ∀ c : Content, c.InRange → ¬ c.CarriedBy (encodeContent (.config { tConfig with periodMs := 11 })) := by
  refine ⟨fun c _ h => ?_, fun c _ h => ?_, fun c r h => ?_⟩
  · rcases c with ⟨i, _ | r⟩ | ⟨i, points⟩ | ⟨a, e⟩ | t | ⟨a, t⟩ | d | r <;>
      first | exact absurd h.1 (by decide) | exact absurd h.2.1 (by simp [byteAt]; omega)
  · rcases c with ⟨i, _ | r⟩ | ⟨i, points⟩ | ⟨a, e⟩ | t | ⟨a, t⟩ | d | r <;>
      first | exact absurd h.1 (by decide) | exact absurd h.2.2.2.1 (by simp [byteAt]; omega)
  · rcases c with ⟨i, _ | r⟩ | ⟨i, points⟩ | ⟨a, e⟩ | t | ⟨a, t⟩ | d | r <;>
      first | exact absurd h.1 (by decide +kernel) | skip
    have : d.periodMs = 11 := by rw [← h.2.2.2.1]; decide +kernel
    rcases r.1 with h | h <;> omega

theorem witness_LatchRequests :
    (tBase.Ready ∧ tBase.store.status ≠ .busy) ∧ (tSaving.Ready ∧ tSaving.store.status = .busy) ∧
    ((2 : Byte) ≠ 0 ∧ (2 : Byte) ≠ 1) := by
  unfold State.Ready
  decide +kernel

theorem witness_StoreIsRead :
    tSaving.Ready ∧ (tSaving.tables.content (.curve 3)).InRange ∧ (tSaving.tables.content (.recipe 16)).InRange ∧
    tSaving.store.operations ≤ 10 ∧ tSaving.nv.metroCounter ≤ 65535 ∧ 6 < (7 : Byte).toNat ∧ 63 < (64 : Byte).toNat ∧
    15 < (16 : Byte).toNat ∧ 7 < (8 : Byte).toNat ∧ 0 < (1 : Byte).toNat := by
  simp only [Content.inRange_iff]
  unfold State.Ready
  decide +kernel

/-- The part with a batch of arm 1 running, its counters at their ceilings, a save under way. -/
def tRanges : State :=
  { tWith (tRatioArm 905100 94900 24) with
    rack := { tBase.rack with errors := 255 },
    nv := { tLastSave.nv with metroCounter := 65535 }, store := tLastSave.store, pending := [.certChange true] }

theorem witness_RangesKept : tRanges.InRange ∧ ∃ t, step tRanges = .next t := by
  refine ⟨⟨by unfold State.CountersInRange; decide +kernel, ?_, ⟨?_, ?_, ?_⟩, ?_, ?_, ?_, ?_⟩, _, rfl⟩
  · intro a p
    unfold Meter.residuesBelow
    revert a
    cases p <;> decide +kernel
  · intro a p
    unfold MeterTotals.inRange
    revert a
    cases p <;> decide +kernel
  · intro a c i
    rcases (by omega : c = 0 ∨ c = 1) with rfl | rfl
    · have : tRanges.nv.saves[a].get 0 = .unwritten := by revert a; decide +kernel
      rw [this]
      nofun
    · by_cases h : a = 1
      · subst h
        intro e
        have : i = tImage 4294967295 := (SaveCopy.holds.inj e).symm
        subst this
        unfold SaveImage.inRange MeterTotals.inRange
        decide +kernel
      · have : tRanges.nv.saves[a].get 1 = .unwritten := by revert a; decide +kernel
        rw [this]
        nofun
  · intro a c i e
    have : i = tImage 0 := by
      have := Option.some.inj e
      injection this with _ _ h
      exact h.symm
    subst this
    unfold SaveImage.inRange MeterTotals.inRange
    decide +kernel
  · intro k
    rw [Content.inRange_iff]
    cases k with
    | recipe i => revert i; decide +kernel
    | curve i => revert i; decide +kernel
    | armEntry i => revert i; decide +kernel
    | aliasTable i => revert i; decide +kernel
    | slotTable | config | protection => decide +kernel
  · intro a c
    by_cases h : a = 1
    · subst h
      intro e
      have : c = tContext := (Option.some.inj e).symm
      subst this
      exact (Recipe.inRange_iff _).2 (by decide +kernel)
    · have : (tRanges.arm a).ctx = none := by revert a; decide +kernel
      rw [this]
      nofun
  · decide +kernel
  · intro a r
    have : (tRanges.arm a).last = none := by revert a; decide +kernel
    rw [this]
    nofun

/-! ### The management channel -/

theorem witness_ResetByRequest :
    tBase.Ready ∧ tBase.store.prepared = false ∧ (tPrepared (tAt .running)).Ready ∧
    (tPrepared (tAt .running)).store.prepared = true ∧ ((tPrepared (tAt .running)).arm 1).state ≠ .idle ∧
    ((tPrepared (tAt .running)).arm 1).state ≠ .faulted ∧ (tPrepared tSaving).Ready ∧
    (∀ a, ((tPrepared tSaving).arm a).state = .idle ∨ ((tPrepared tSaving).arm a).state = .faulted) ∧
    (tPrepared tSaving).store.hasCommit = true ∧ (tPrepared tLastSave).Ready ∧
    (∀ a, ((tPrepared tLastSave).arm a).state = .idle ∨ ((tPrepared tLastSave).arm a).state = .faulted) ∧
    (tPrepared tLastSave).store.hasCommit = false := by
  unfold State.Ready
  decide +kernel

/-- A transaction in progress; and for each request a payload or an arm field that its row does not allow. -/
theorem witness_RequestsTurnedAway :
    (tWaiting.powered = true ∧ tWaiting.rack.transaction ≠ .none) ∧
    (tBase.powered = true ∧ tBase.rack.transaction = .none ∧ 240 < (List.replicate 241 (0 : Byte)).length ∧
      ([] : List Byte).length ≠ 11 ∧ ([] : List Byte).length ≠ 1 ∧ ([] : List Byte).length ≠ 2 ∧
      ([1, 0] : List Byte).length < 3 ∧ 34 < (List.replicate 35 (0 : Byte)).length ∧
      contentLength [5, 0, 0] ≠ some ([5, 0, 0] : List Byte).length ∧ ([0] : List Byte) ≠ [] ∧
      7 < (8 : Byte).toNat ∧ (8 : Byte) ≠ 255 ∧ (0 : Byte) ≠ 255) := by decide +kernel

/-- A downstream frame that carries a segment. -/
def tSegment (number : Byte) (kind : SegmentKind) (data : List Byte) : DownFrame :=
  { number := number, commands := List.replicate 8 1, kind := kind, segment := data }

/-- 1.9: FIRST, MIDDLE and LAST in frames 254, 255 and 0; a response of 33 bytes. -/
theorem witness_SegmentsBothWays :
    (tBase.rack.transaction = .none ∧ tBase.rack.assembly = none ∧
      (tSegment 254 .first (List.replicate 32 0)).kind = .first ∧ (tSegment 0 .last [1]).kind = .last ∧
      (∀ m ∈ [tSegment 255 .middle (List.replicate 32 0)], m.kind = .middle) ∧
      List.IsChain (fun x y : DownFrame => y.number = x.number + 1)
        ([tSegment 254 .first (List.replicate 32 0), tSegment 255 .middle (List.replicate 32 0), tSegment 0 .last [1]])) ∧
    List.replicate 33 (0 : Byte) ≠ [] := by decide +kernel

theorem witness_HeldResponseKept :
    tWaiting.HeldMatches ∧ ∃ t, step { tWaiting with pending := [.serviceTimeout 1] } = .next t := by
  refine ⟨?_, _, rfl⟩
  unfold State.HeldMatches
  decide +kernel

/-! ### The rack link -/

/-- A frame exactly half a period after the last one, with 32 bytes of segment data, passes; a shorter one fails. -/
theorem witness_FramesDecided :
    tBase.powered = true ∧ tBase.passesChecks 5000 (tFrame 40 3 1 (List.replicate 32 7)) ∧
    ¬ tBase.passesChecks 4999 (tFrame 40 3 1 (List.replicate 32 7)) ∧ ¬ tBase.passesChecks 5000 [0xD2, 0x4B] := by
  unfold State.passesChecks
  refine ⟨rfl, ⟨by decide +kernel, by decide +kernel, by decide +kernel, by decide +kernel, by decide +kernel,
    by decide +kernel, ?_⟩, ?_, by decide +kernel⟩
  · rintro l ⟨⟩
    decide
  · rintro ⟨_, _, _, _, _, _, h⟩
    exact absurd (h { number := 39, atUs := 0 } rfl) (by decide)

theorem witness_InternalPeriodEvents :
    (State.reset.powered = true ∧ State.reset.rack.up = false ∧ State.reset.timebase.internal = true) ∧
    (tBase.powered = true ∧ tBase.rack.silence + 1 < tBase.config.linkLossLimit ∧ tBase.timebase.internal = false ∧
      tBase.rack.last = some { number := 39, atUs := 0 }) := by
  exact ⟨⟨rfl, rfl, rfl⟩, rfl, by decide +kernel, rfl, rfl⟩

/-- The part with an arm in a state, at the last period event before link loss. -/
def tSilent (st : ArmState) : State := { tAt st with rack := { tBase.rack with silence := 49 } }

theorem witness_LinkLossEffects :
    (tSilent .held).powered = true ∧ (tSilent .held).rack.up = true ∧
    (tSilent .held).config.linkLossLimit ≤ (tSilent .held).rack.silence + 1 ∧
    (tSilent .held).rack.levels[1].runPermit = true ∧ ((tSilent .held).arm 1).state.flowing ∧
    ((tSilent .startPending).arm 1).state = .startPending ∧ ((tSilent .authorized).arm 1).state = .authorized := by
  unfold ArmState.flowing
  decide +kernel

theorem witness_CheckWordDetects : (0 : Byte) ≠ 1 := by decide

/-- The arm of 7.12 with set-points, its shot for injector 2 outstanding. -/
def tFlowing : State :=
  tWith { tOldShot .running 2 false with wildSet := 2400, ratio := { RatioCtl.opened 1000 with ctrlSet := 305 } }

/-! ### The field trunk -/

theorem witness_TrunkFrameLayout :
    tFlowing.trunk.slotCount = 16 ∧ tFlowing.trunk.testFrame = false ∧
    tFlowing.trunk.table[(5 : Fin 64)] = { arm := 1, role := .wildValve } ∧ (tFlowing.arm 1).wildSet < 65536 ∧
    tFlowing.trunk.table[(7 : Fin 64)] = { arm := 1, role := .ctrlValve } ∧ (tFlowing.arm 1).ratio.ctrlSet < 65536 ∧
    tFlowing.trunk.table[(9 : Fin 64)] = { arm := 1, role := .inj 2 } ∧
    (tFlowing.arm 1).shotFor 2 = some { volume := 24, toggle := false, age := 99 } ∧ (24 : Nat) < 65536 := by
  decide +kernel

theorem witness_StrayWordsIgnored :
    (tWindow tBase 14).powered = true ∧ (tWindow tBase 14).trunk.answering = true ∧
    (tWindow tBase 14).trunk.nextWindow = (14 : Fin 64).val ∧ (14 : Fin 64).val + 1 < (tWindow tBase 14).trunk.slotCount ∧
    (tWindow tBase 14).trunk.table[(14 : Fin 64)].role = .unused := by decide +kernel

/-- A valid word: toggle set, against a last valid toggle clear. -/
theorem witness_ValidWordTaken :
    (tMeterState .running).WindowOpen 4 1 .wildMeter ∧ wordGood tMeterWord ∧
    (tMeterState .running).trunk.slots[(4 : Fin 64)].toggle ≠ some ((tMeterWord.getD 0 0).getLsbD 0) := by
  unfold State.WindowOpen wordGood
  decide +kernel

/-- No word, a bad check, and a repeated toggle, at a count of 24. -/
theorem witness_InvalidOutcomeCounted :
    let s := { tWindow tBase 6 with trunk := { (tWindow tBase 6).trunk with
      slots := tBase.trunk.slots.set 6 { toggle := some true, invalids := 24, up := true } } }
    s.WindowOpen 6 1 .ctrlMeter ∧ (6 : Fin 64).val + 1 < s.trunk.slotCount ∧ s.trunk.slots[(6 : Fin 64)].invalids ≤ 25 ∧
    s.trunk.slots[(6 : Fin 64)].up = true ∧ ([] : List Byte).length ≠ 8 ∧ ¬ wordGood (List.replicate 7 0 ++ [1]) ∧
    s.trunk.slots[(6 : Fin 64)].toggle = some ((tMeterWord.getD 0 0).getLsbD 0) := by
  unfold State.WindowOpen wordGood
  decide +kernel

/-- The part with slot 6 one invalid outcome before LOST, a transfer of arm 1 in flight through slot 6 or 7. -/
def tLosing (st : ArmState) (through : Fin 64) : State :=
  { tAt st with
    rack := { tBase.rack with transaction := .held 1 },
    transfers := tBase.transfers.set 1 (Transfer.accepted through false [7]),
    trunk := { tBase.trunk with slots := tBase.trunk.slots.set 6 { toggle := some true, invalids := 24, up := true } } }

theorem witness_SlotLostEffects :
    (tLosing .running 7).powered = true ∧ (6 : Fin 64).val < (tLosing .running 7).trunk.slotCount ∧
    (tLosing .running 7).trunk.table[(6 : Fin 64)] = { arm := 1, role := .ctrlMeter } ∧ Role.ctrlMeter ≠ .unused ∧
    (tLosing .running 7).trunk.slots[(6 : Fin 64)].up = true ∧
    25 ≤ (tLosing .running 7).trunk.slots[(6 : Fin 64)].invalids + 1 ∧ ((tLosing .running 7).arm 1).ctx = some tContext ∧
    needs tContext.recipe .ctrlMeter ∧ ((tLosing .running 7).arm 1).state.flowing ∧
    (tLosing .running 7).transfers[(1 : Fin 8)].slot ≠ 6 ∧ (tLosing .running 6).transfers[(1 : Fin 8)].slot = 6 ∧
    (tLosing .running 6).transfers[(1 : Fin 8)].inFlight = true ∧
    (tLosing .running 6).transfers[(1 : Fin 8)].wanted = true ∧
    ({ Transfer.accepted 6 false [7] with wanted := false } : Transfer).inFlight = true := by
  refine ⟨rfl, by decide +kernel, by decide +kernel, by decide, by decide +kernel, by decide +kernel, rfl, .inr (.inl rfl),
    .inl rfl, by decide +kernel, by decide +kernel, by decide +kernel, by decide +kernel, rfl⟩

/-- A trunk one frame before DOWN, with a flowing, a closing and an idle arm; tests that end at silence 24 and 25. -/
theorem witness_TrunkDownAndTestEnd :
    let s := ({ tAt .running with trunk := { tBase.trunk with silence := 24 } } : State).setArm 2 (tClosing .normal [])
    let ended := fun n : Nat => { tBase with trunk := { tBase.trunk with
      silence := n, state := .test, test := { state := .running, remaining := 0, framesRun := 3, errors := 2 } } }
    s.powered = true ∧ s.trunk.state = .up ∧ 25 ≤ s.trunk.silence + 1 ∧ (s.arm 1).state.flowing ∧
    (s.arm 2).state = .closing ∧ (s.arm 2).endReason ≠ some .trunkLost ∧ EndCause.trunkLost ∉ (s.arm 2).secondary ∧
    ¬ (s.arm 0).state.flowing ∧ (s.arm 0).state ≠ .closing ∧ (ended 24).trunk.test.state = .running ∧
    (ended 24).trunk.test.remaining = 0 ∧ (ended 24).trunk.silence < 25 ∧ 25 ≤ (ended 25).trunk.silence := by
  unfold ArmState.flowing
  decide +kernel

theorem witness_TrunkTestDecided : tBase.Ready ∧ 60000 < 65536 := by
  unfold State.Ready
  decide +kernel

theorem witness_CountersAndTotalsRead :
    tRanges.Ready ∧ tRanges.CountersInRange ∧ ∀ a p, (tRanges.meter a p).totals.inRange := by
  refine ⟨⟨rfl, rfl⟩, by unfold State.CountersInRange; decide +kernel, ?_⟩
  intro a p
  unfold MeterTotals.inRange
  revert a
  cases p <;> decide +kernel

/-! ### Lines and batches -/

theorem witness_LinesAct :
    (tAt .running).powered = true ∧ (tAt .running).lines.permit[(1 : Fin 8)] = true ∧ ((tAt .running).arm 1).state.flowing ∧
    (tAt .running).lines.estop = false ∧ (tPending.arm 1).state = .startPending ∧ (tPending.arm 1).ctx = some tContext ∧
    ((tAt .running).arm 0).state = .idle ∧ State.reset.lines.permit[(1 : Fin 8)] = false ∧
    ({ tBase with lines := { tBase.lines with estop := true } } : State).lines.estop = true := by
  refine ⟨rfl, rfl, .inl rfl, rfl, rfl, rfl, rfl, rfl, rfl⟩

/-- The needed roles of the recipe of 4.8 have one slot each, which is UP. -/
theorem test_arm_equipped : tBase.Equipped 1 tRecipe := by
  refine ⟨?_, by decide +kernel, by decide +kernel⟩
  intro role h
  have one : ∀ (r : Role) (i : Fin 64), tBase.trunk.slots[i].up = true →
      (∀ j, tBase.assigns j 1 r ↔ j = i) → ∃ i : Fin 64, tBase.trunk.slots[i].up = true ∧ ∀ j, tBase.assigns j 1 r ↔ j = i :=
    fun _ i u f => ⟨i, u, f⟩
  unfold State.assigns at one ⊢
  rcases h with rfl | rfl | rfl | rfl | ⟨item, hm, rfl⟩
  · exact one _ 4 (by decide +kernel) (by decide +kernel)
  · exact one _ 6 (by decide +kernel) (by decide +kernel)
  · exact one _ 5 (by decide +kernel) (by decide +kernel)
  · exact one _ 7 (by decide +kernel) (by decide +kernel)
  · have : item = { injector := 0, dose := 450, interval := 40, tolerance := 10, stop := true } ∨
        item = { injector := 2, dose := 60, interval := 20, tolerance := 15, stop := false } := by
      simpa [tRecipe] using hm
    rcases this with rfl | rfl
    · exact one _ 8 (by decide +kernel) (by decide +kernel)
    · exact one _ 9 (by decide +kernel) (by decide +kernel)

/-- The recipe of 4.8 passes the checks of R73. -/
theorem test_recipe_fits : tRecipe.Fits := by
  unfold Recipe.Fits
  decide +kernel

/-- A preset at either end of its range, and a reference by key and by slot. -/
theorem witness_AuthorizeAccepted :
    tBase.Ready ∧ (tBase.arm 1).state = .idle ∧ tBase.trunk.test.state ≠ .running ∧ (tBase.armEntry 1).enabled = true ∧
    referenceNames 1 2 1 0 16 ∧ referenceNames 0 16 0 0 16 ∧ tBase.tables.recipes[(16 : Fin 64)].work = some tRecipe ∧
    50 ≤ 50 ∧ 40000 ≤ 40000 ∧ ((1 : Byte) = 0 ∨ (1 : Byte) = 1) ∧ 4294967295 < 4294967296 ∧ tRecipe.Fits ∧
    tBase.Equipped 1 tRecipe := by
  refine ⟨⟨rfl, rfl⟩, by decide +kernel, by decide +kernel, by decide +kernel, by unfold referenceNames; decide,
    by unfold referenceNames; decide, by decide +kernel, by decide, by decide, by decide, by decide, test_recipe_fits,
    test_arm_equipped⟩

/-- The part with the recipe of slot 16 changed. -/
def tRecipeIs (r : Option Recipe) : State :=
  { tBase with tables := { tBase.tables with recipes := tBase.tables.recipes.set 16 (Entry.loaded r) } }

/-- The part with its slot table changed. -/
def tSlotsAre (t : Vector SlotEntry 64) : State := { tBase with tables := { tBase.tables with slots := Entry.loaded t } }

/-- The conditions of AUTHORIZE up to the recipe. -/
theorem witness_AuthorizeRefused_before_recipe :
    (tBase.Ready ∧ 40001 < 65536 ∧ ((tAt .running).arm 1).state ≠ .idle) ∧
    ({ tBase with trunk := { tBase.trunk with test := { tBase.trunk.test with state := .running } } } : State).trunk.test.state =
      .running ∧
    ((tBase.arm 0).state = .idle ∧ (tBase.armEntry 0).enabled = false) ∧
    ((tBase.arm 1).state = .idle ∧ tBase.trunk.test.state ≠ .running ∧ (tBase.armEntry 1).enabled = true) ∧
    1 < (2 : Byte).toNat ∧ ((0 : Byte).toNat ≤ 1 ∧ ∀ i, ¬ referenceNames 0 64 0 0 i) ∧ (∀ i, ¬ referenceNames 1 0 5 0 i) ∧
    (referenceNames 0 16 0 0 16 ∧ (tRecipeIs none).tables.recipes[(16 : Fin 64)].work = none) ∧
    tBase.tables.recipes[(16 : Fin 64)].work = some tRecipe ∧ 49 < 50 ∧ 40000 < 40001 ∧ 1 < (2 : Byte).toNat := by
  unfold State.Ready referenceNames
  decide +kernel

/-- The checks of R73 to R75: a recipe that does not fit, a role with no slot and with two, an EMPTY curve, a slot LOST. -/
theorem witness_AuthorizeRefused_after_recipe :
    ¬ ({ tRecipe with fraction := 900 } : Recipe).Fits ∧
    (∀ j, ¬ (tSlotsAre blankSlotTable).assigns j 1 .wildMeter) ∧
    ((10 : Fin 64) ≠ 4 ∧ (tSlotsAre (tSlots.set 10 { arm := 1, role := .wildMeter })).assigns 10 1 .wildMeter ∧
      (tSlotsAre (tSlots.set 10 { arm := 1, role := .wildMeter })).assigns 4 1 .wildMeter) ∧
    ({ tBase with tables := { tBase.tables with curves := Tables.blank.curves } } : State).tables.curves[(3 : Fin 16)].work =
      [] ∧
    (tBase.tables.curves[(3 : Fin 16)].work ≠ [] ∧ tBase.tables.curves[(4 : Fin 16)].work ≠ [] ∧
      needs tRecipe .wildMeter ∧ tBase.assigns 4 1 .wildMeter ∧
      (Trunk.afterReset 16 tSlots).slots[(4 : Fin 64)].up = false) := by
  refine ⟨by unfold Recipe.Fits; decide +kernel, by unfold State.assigns; decide +kernel,
    by unfold State.assigns; decide +kernel, by decide +kernel, by decide +kernel, by decide +kernel, .inl rfl,
    by unfold State.assigns; decide +kernel, by decide +kernel⟩

/-- Every needed role of the arm is held by one slot, whatever its state. -/
theorem witness_AuthorizeRefused_roles : ∀ role, needs tRecipe role → ∃ k, ∀ j, tBase.assigns j 1 role ↔ j = k :=
  fun role h => let ⟨i, _, f⟩ := test_arm_equipped.1 role h; ⟨i, f⟩

/-- The start conditions of arm 1 hold in the part with every slot UP. -/
theorem test_may_start (st : ArmState) : (tAt st).MayStart 1 tContext := by
  have up : ∀ i : Fin 64, tBase.trunk.slots[i].up = true := by decide +kernel
  exact ⟨rfl, rfl, rfl, rfl, rfl, fun i _ _ _ => up i⟩

theorem witness_StartDecided :
    ((tAt .authorized).Ready ∧ ((tAt .authorized).arm 1).state = .authorized ∧
      ((tAt .authorized).arm 1).ctx = some tContext ∧ (tAt .authorized).MayStart 1 tContext ∧
      1 ∉ (tAt .authorized).windows[tContext.settings.lane].pending) ∧
    (1 < (2 : Byte).toNat ∧ (1 : Byte).toNat ≤ 1 ∧ (tBase.arm 1).state ≠ .authorized) ∧
    ¬ ({ tAt .authorized with lines := Lines.initial } : State).MayStart 1 tContext := by
  refine ⟨⟨⟨rfl, rfl⟩, rfl, rfl, test_may_start _, by decide +kernel⟩, by decide +kernel, ?_⟩
  rintro ⟨_, _, h, _⟩
  exact absurd h (by decide)

/-- AUTHORIZED, pending alone and with a second arm, IDLE and FAULTED. -/
theorem witness_CancelAndClearFaultDecided :
    (tAt .authorized).Ready ∧ ((tAt .authorized).arm 1).state = .authorized ∧ tPending.Ready ∧
    (tPending.arm 1).state = .startPending ∧ (tPending.arm 1).ctx = some tContext ∧
    tPending.windows[tContext.settings.lane].pending.filter (· ≠ 1) = [] ∧
    ([0, 1] : List (Fin 8)).filter (· ≠ 1) ≠ [] ∧ (tBase.arm 1).state ≠ .authorized ∧
    (tBase.arm 1).state ≠ .startPending ∧ (tBase.arm 1).state ≠ .faulted ∧
    ((tWith { Arm.afterReset with state := .faulted }).arm 1).state = .faulted := by
  unfold State.Ready
  decide +kernel

theorem witness_SenseReadAndCleared :
    tBase.Ready ∧ ([0] : List Byte) ≠ [] ∧ (7 < (8 : Byte).toNat ∧ (8 : Byte) ≠ 255) := by
  exact ⟨⟨rfl, rfl⟩, by decide, by decide⟩

/-- The arm after the batch of 5.12 has finalized. -/
def tFinished : State := tAfter (.armSettled 1) (tStill (tWith (tClosing .normal [])))

theorem witness_RecordsRead :
    (tBase.Ready ∧ (tBase.arm 1).current = none ∧ (tBase.arm 1).last = none) ∧
    ((tAt .running).Ready ∧ ((tAt .running).arm 1).current = some (tRecord .started) ∧
      ((tAt .running).arm 1).ctx = some tContext ∧ tContext.recipe.InRange ∧
      ((tAt .running).arm 1).entries.length ≤ 4 ∧ (tRecord .started).batchNumber < 65536 ∧ tContext.txid < 4294967296) ∧
    (tFinished.Ready ∧ (tFinished.arm 1).last.isSome = true ∧ ∀ r, (tFinished.arm 1).last = some r → r.fits) ∧
    1 < (2 : Byte).toNat := by
  refine ⟨by unfold State.Ready; decide +kernel, ⟨⟨rfl, rfl⟩, rfl, rfl, (Recipe.inRange_iff _).2 (by decide +kernel), by decide +kernel,
    by decide, by decide⟩, ⟨by unfold State.Ready; decide +kernel, by decide +kernel, ?_⟩, by decide⟩
  intro r h
  have : (tFinished.arm 1).last.all (fun r => decide (r.name.length ≤ 16) && decide (r.additives.length ≤ 4)) = true := by
    decide +kernel
  simpa [h, Record.fits] using this

/-- 5.11: two arms pend in lane 0, of which arm 0 has lost its PERMIT. -/
def tTwoPending : State :=
  { (tAt .startPending).setArm 0 (tOpen .startPending) with
    lines := { tBase.lines with permit := tBase.lines.permit.set 0 false },
    windows := tBase.windows.set 0 { isOpen := true, remaining := 1, pending := [1, 0] } }

theorem witness_WindowExpiryStartsOrReturns :
    tTwoPending.powered = true ∧ tTwoPending.windows[(0 : Fin 4)].isOpen = true ∧
    tTwoPending.windows[(0 : Fin 4)].remaining ≤ 1 ∧ 2 ∉ tTwoPending.windows[(0 : Fin 4)].pending ∧
    1 ∈ tTwoPending.windows[(0 : Fin 4)].pending ∧ (tTwoPending.arm 1).state = .startPending ∧
    (tTwoPending.arm 1).ctx = some tContext ∧ tTwoPending.MayStart 1 tContext ∧
    0 ∈ tTwoPending.windows[(0 : Fin 4)].pending ∧ (tTwoPending.arm 0).state = .startPending ∧
    (tTwoPending.arm 0).ctx = some tContext ∧ ¬ tTwoPending.MayStart 0 tContext := by
  have up : ∀ i : Fin 64, tTwoPending.trunk.slots[i].up = true := by decide +kernel
  refine ⟨rfl, by decide +kernel, by decide +kernel, by decide +kernel, by decide +kernel, rfl, rfl,
    ⟨rfl, rfl, by decide +kernel, rfl, rfl, fun i _ _ _ => up i⟩, by decide +kernel, rfl, rfl, ?_⟩
  rintro ⟨_, _, h, _⟩
  exact absurd h (by decide +kernel)

/-- HOLDING with and without the resume conditions; CLOSING with a sample of 0 and without a sample. -/
theorem witness_SettlingFinalizes :
    let holding := tStill (tWith { tOpen .holding with zeroCount := 19 })
    let held := { holding with lines := Lines.initial }
    let closing := tStill (tWith (tClosing .normal []))
    let leaking := tWith (tClosing .normal [])
    (holding.powered = true ∧ (holding.arm 1).ctx = some tContext ∧ (holding.meter 1 .wild).sample = some 0 ∧
      (holding.meter 1 .ctrl).sample = some 0 ∧ 19 ≤ (holding.arm 1).zeroCount ∧ (holding.arm 1).state = .holding ∧
      holding.rack.levels[(1 : Fin 8)].hold = false ∧ holding.rack.levels[(1 : Fin 8)].runPermit = true ∧
      holding.lines.permit[(1 : Fin 8)] = true ∧ holding.lines.estop = false) ∧
    (held.powered = true ∧ (held.arm 1).state = .holding ∧ ¬ held.lines.permit[(1 : Fin 8)] = true) ∧
    ((closing.meter 1 .wild).sample = some 0 ∧ (closing.arm 1).state = .closing ∧ 19 ≤ (closing.arm 1).zeroCount ∧
      (closing.arm 1).current = some (tRecord .started) ∧ (closing.arm 1).endReason = some .normal) ∧
    ((leaking.arm 1).state = .closing ∧ (leaking.arm 1).ctx = some tContext ∧ EndCause.normal ≠ .valveLeak ∧
      EndCause.valveLeak ∉ (leaking.arm 1).secondary ∧ (leaking.meter 1 .wild).sample = none ∧
      (leaking.arm 1).zeroCount < 20 ∧ leaking.config.settleLimit ≤ (leaking.arm 1).settleAge + 1) := by
  decide +kernel

/-- The hold timer one frame before the limit; an age at the limit; a 25th frame outside the band. -/
theorem witness_WatchesEndBatch :
    let held := tWith { tOpen .held with holdTimer := 179999 }
    let aged := fun st => (tAt st).setMeter 1 .ctrl { tMeter with age := 300 }
    let off := tWith (tRatioArm 905100 94900 24)
    (held.powered = true ∧ (held.arm 1).state = .held ∧
      held.config.holdLimitS * 1000 / held.config.periodMs ≤ (held.arm 1).holdTimer + 1) ∧
    ((aged .running).config.tempHoldLimit ≤ ((aged .running).meter 1 .ctrl).age ∧
      ((aged .running).arm 1).state = .running ∧ ((aged .closing).arm 1).state = .closing ∧
      ((aged .authorized).arm 1).state = .authorized) ∧
    ((off.arm 1).state = .running ∧ (off.arm 1).ratio.mode = .ratio ∧ (off.arm 1).ctx = some tContext ∧
      tContext.recipe.checkVolume * 1000 ≤ (off.arm 1).wild.net + (off.arm 1).ctrl.net ∧
      0 < (off.arm 1).wild.net + (off.arm 1).ctrl.net ∧
      tContext.recipe.band < Int.natAbs ((((off.arm 1).ctrl.net * 10000 /
        ((off.arm 1).wild.net + (off.arm 1).ctrl.net) : Nat) : Int) - tContext.recipe.fraction) ∧
      tContext.recipe.persistence ≤ 500 ∧ tContext.recipe.persistence ≤ (off.arm 1).ratio.outCount + 1) := by
  decide +kernel

/-- The first, and the third, bad shot of an entry under CONTINUE and under STOP. -/
theorem witness_ShotTimesOut :
    let s := fun bad stop => tWith (tOldShot .running bad stop)
    (s 1 false).powered = true ∧ ((s 1 false).arm 1).entries[(0 : Fin 4).val]? = some (tOldEntry 1 false) ∧
    (tOldEntry 1 false).shot = some { volume := 24, toggle := false, age := 99 } ∧ 99 ≤ 99 ∧
    (tOldEntry 1 false).bad < 2 ∧ ((s 2 false).arm 1).entries[(0 : Fin 4).val]? = some (tOldEntry 2 false) ∧
    (tOldEntry 2 false).bad = 2 ∧ (tOldEntry 2 false).state ≠ .failed ∧ (tOldEntry 2 false).item.stop = false ∧
    ((s 2 true).arm 1).entries[(0 : Fin 4).val]? = some (tOldEntry 2 true) ∧ (tOldEntry 2 true).item.stop = true ∧
    ((s 2 true).arm 1).state.flowing := by
  unfold ArmState.flowing
  decide +kernel

theorem witness_SetpointsStayAtRest :
    tFlowing.SetpointsRest ∧ ∃ t, step { tFlowing with pending := [.estopChange true] } = .next t := by
  refine ⟨?_, _, rfl⟩
  unfold State.SetpointsRest Arm.setpointsRest
  decide +kernel

theorem witness_BatchTotalsNeverDecrease :
    let s := { tMeterState .running with pending := [.answerWindowClose tMeterWord] }
    (s.arm 1).isOpen = true ∧
    (match step s with
      | .next t => (t.arm 1).isOpen && (t.arm 1).toggle == (s.arm 1).toggle
      | .fault _ | .refused _ => false) = true := by decide +kernel

theorem witness_ContextsStayMatched :
    (tAt .authorized).ContextsMatch ∧ ∃ t, step { tAt .authorized with pending := [.cancel 1 []] } = .next t := by
  refine ⟨?_, _, rfl⟩
  unfold State.ContextsMatch Arm.contextMatches
  decide +kernel

/-! ### Service -/

/-- 10.4: a READ of the controlled meter while the arm runs; a WRITE with CERT UNLOCKED and the arm IDLE. -/
theorem witness_ServiceAccepted :
    let run := tAliased (tAt .running)
    let idle := tAliased tBase
    (run.Ready ∧ 1 ≤ ([7, 8, 9] : List Byte).length ∧ (List.replicate 32 (0 : Byte)).length ≤ 32 ∧
      run.tables.aliases[(1 : Fin 8)].work[(3 : Fin 8)] = some 6 ∧ run.assigns 6 1 .ctrlMeter ∧
      run.trunk.slots[(6 : Fin 64)].up = true ∧ run.transfers[(1 : Fin 8)].phase = .idle) ∧
    (idle.Ready ∧ idle.tables.aliases[(1 : Fin 8)].work[(3 : Fin 8)] = some 6 ∧ idle.assigns 6 1 .ctrlMeter ∧
      idle.lines.certUnlocked = true ∧ (idle.arm 1).isOpen = false) := by
  unfold State.Ready State.assigns
  decide +kernel

theorem witness_ServiceTimesOut :
    tWaiting.powered = true ∧ tWaiting.transfers[(1 : Fin 8)].phase = .reply ∧ 99 ≤ tWaiting.transfers[(1 : Fin 8)].age ∧
    tWaiting.transfers[(1 : Fin 8)].wanted = true ∧
    (tWaiting.transfers[(1 : Fin 8)].unwanted.phase = .reply ∧ tWaiting.transfers[(1 : Fin 8)].unwanted.wanted = false) := by
  decide +kernel

/-! ### Metering, ratio control, additives -/

/-- The curve of 3.10 at both ends and inside its second segment. -/
theorem witness_MeterFactorOfCurve :
    curveValid tCurve = true ∧ tCurve ≠ [] ∧ tCurve = { flow := 600, factor := 100180 } :: tCurve.tail ∧ 600 ≤ 600 ∧
    tCurve.getLast? = some { flow := 2400, factor := 99970 } ∧ 2400 ≤ 2400 ∧
    tCurve = [{ flow := 600, factor := 100180 }] ++ { flow := 1500, factor := 100060 } ::
      { flow := 2400, factor := 99970 } :: [] ∧ 1500 ≤ 2399 ∧ 2399 < 2400 := by decide +kernel

/-- The content of the word of 3.10. -/
def tSample : MeterWord := { total := 21, temp := -1840, status := .ok }

/-- A counted sample of the word of 3.10; its K10 and residue. -/
theorem witness_DeltaConverted :
    let s := tMeterState .running
    let k := s.constants 1 .wild
    s.ConvertsWith 1 .wild k ∧ ¬ s.Seeds 1 .wild ∧ ¬ s.AboveLimit 1 .wild tSample.total ∧
    (s.meter 1 .wild).lastTotal = some 65510 ∧ 100 ≤ k.k10 ∧ (s.meter 1 .wild).pulseRes < k.k10 ∧
    (s.meter 1 .wild).totals.inRange := by
  have n : ¬ (tMeterState .running).Seeds 1 .wild := by rw [← State.seeds_iff]; decide +kernel
  refine ⟨State.convertsWith_iff.2 rfl, n, ?_, ?_⟩
  · rw [← State.above_iff (w := tSample) n]
    decide +kernel
  · unfold MeterTotals.inRange
    decide +kernel

/-- A sample that seeds, and one above the limit (a delta of 82 against the limit 81 of 3.10; 81 is not above it). -/
theorem witness_DeltaConverted_uncounted :
    let last := fun l => (tMeterState .running).setMeter 1 .wild { tMeter with lastTotal := l }
    (last none).Seeds 1 .wild ∧ (last (some 65475)).AboveLimit 1 .wild tSample.total ∧
    ¬ (last (some 65475)).Seeds 1 .wild ∧ ¬ (last (some 65476)).AboveLimit 1 .wild tSample.total := by
  have n : ∀ l, ¬ ((tMeterState .running).setMeter 1 .wild { tMeter with lastTotal := some l }).Seeds 1 .wild := by
    intro l
    rw [← State.seeds_iff]
    rw [show ((tMeterState .running).setMeter 1 .wild { tMeter with lastTotal := some l }).isSeed 1 .wild = false from rfl]
    decide
  refine ⟨.inl rfl, ?_, n 65475, ?_⟩
  · rw [← State.above_iff (w := tSample) (n 65475)]
    decide +kernel
  · rw [← State.above_iff (w := tSample) (n 65476)]
    decide +kernel

/-- The word of 3.10 with status FAIL. -/
def tFailWord : List Byte := tWord [0x01, 0x00, 0x15, 0xF8, 0xD0, 0x02, 0x00]

/-- A meter with one slot whose partner is not settled, and one with a later slot: a counted word, one of status FAIL, a
temperature age at its limit, and an IDLE arm that goes FAULTED. -/
theorem witness_MeterWordProcessed :
    let s := tMeterState .running
    let twice := { s with trunk := { s.trunk with table := tSlots.set 5 { arm := 1, role := .wildMeter } } }
    let idle := ({ tMeterState .running with arms := tBase.arms } : State).modArm 1 (fun x => { x with unauthorized := 9999 })
    s.WindowOpen 4 1 (StreamPos.meterRole .wild) ∧ (4 : Fin 64).val + 1 < s.trunk.slotCount ∧ wordGood tMeterWord ∧
    s.trunk.slots[(4 : Fin 64)].toggle ≠ some ((tMeterWord.getD 0 0).getLsbD 0) ∧ s.trunk.testFrame = false ∧
    (s.meter 1 .wild).sample = none ∧ byteAt tMeterWord 5 ≤ 2 ∧
    (s.meter 1 .ctrl).settledFrame ≠ s.trunk.frameCounter ∧
    (¬ ∃ j : Fin 64, 4 < j ∧ j.val < s.trunk.slotCount ∧
      s.trunk.table[j] = { arm := 1, role := StreamPos.meterRole .wild }) ∧
    (∃ j : Fin 64, 4 < j ∧ j.val < twice.trunk.slotCount ∧
      twice.trunk.table[j] = { arm := 1, role := StreamPos.meterRole .wild }) ∧
    (wordGood tFailWord ∧ byteAt tFailWord 5 = 2) ∧
    (idle.WindowOpen 4 1 (StreamPos.meterRole .wild) ∧ (idle.arm 1).state = .idle ∧ (idle.arm 1).unauthorized = 9999 ∧
      idle.config.unauthorizedL * 1000 ≤ 10000) ∧
    s.config.tempHoldLimit ≤ (({ tMeter with age := 300 } : Meter)).age := by
  unfold State.WindowOpen wordGood
  decide +kernel

/-- R102: the word of 3.10 on an IDLE arm one mL below the threshold: FAULTED, the save queued. -/
theorem test_unauthorized_flow :
    let idle := ({ tMeterState .running with arms := tBase.arms } : State).modArm 1 (fun x => { x with unauthorized := 9999 })
    let t := tAfter (.answerWindowClose tMeterWord) idle
    (t.arm 1).state = .faulted ∧ (t.arm 1).sense = .unauthorizedFlow ∧ t.store.underWay.isSome = true := by decide +kernel

/-- 5.12: TOP_OFF with 39,833 mL remaining, the close-ahead, and with one mL more. -/
def tTopOff (ctrl : Nat) : Arm := { tRatioArm 7160000 ctrl 0 with phase := .topOff, wildSet := 600 }

theorem witness_RunningArmSteps :
    (tTopOff 800167).state = .running ∧ (tTopOff 800167).ctx = some tContext ∧ (tTopOff 800167).phase ≠ .none ∧
    (tTopOff 800167).remaining = tContext.closeAhead ∧ ¬ (tTopOff 800166).remaining ≤ tContext.closeAhead ∧
    (tTopOff 800167).remaining ≤ tContext.settings.topOff * 1000 := by decide +kernel

theorem witness_TrimComputed :
    let c : Context := { tContext with recipe := { tRecipe with gain := 0 } }
    let x := { tRatioArm 1203450 131020 0 with ctx := some c }
    x.state = .running ∧ x.ctx = some c ∧ x.ratio.mode = .ratio ∧ c.recipe.gain = 0 ∧ (0 : Int) ≤ 24 ∧
    Int.natAbs 24 * 40 < 1000 ∧ Int.natAbs (-24) ≤ 24 := by decide +kernel

/-- 6.8, frame h: the set-point of 290 moves by 15 toward 313; one of 300 reaches it. -/
theorem witness_ControlledSetpointMoves :
    tContext.recipe.ctrlFraction < 10000 ∧ 290 ≤ tContext.settings.ctrlMax ∧
    ctrlDemand tContext 2280 1203450 131020 = 313 ∧ (290 : Int) < 313 ∧ Int.natAbs (313 - 300) ≤ tContext.settings.rampLimit ∧
    (313 : Int) < 400 := by decide +kernel

/-- 7.12 and 7.13: replies at the edge of the tolerance, a shot with its entry, below three bad shots. -/
theorem witness_RepliesClassified :
    Int.natAbs ((180 : Int) - 200) * 100 ≤ 200 * 10 ∧ 200 * 10 < Int.natAbs ((179 : Int) - 200) * 100 ∧
    200 * 10 < Int.natAbs ((221 : Int) - 200) * 100 ∧ 0 < 200 ∧ 20 ≤ 20 ∧
    (tOldShot .running 1 false).entries[0]? = some (tOldEntry 1 false) ∧
    (tOldEntry 1 false).shot = some { volume := 24, toggle := false, age := 99 } ∧
    (tOldEntry 1 false).item.injector = 2 ∧ (tOldEntry 1 false).bad < 2 ∧ classifyDone 30 24 15 = .long ∧
    10 ≤ (tOldEntry 1 false).item.nominal := by decide +kernel

/-- 7.12: the pass that crosses 60,000 mL at 60,050 mL. -/
def tCrossing : Arm :=
  { tRatioArm 54045 6005 0 with
    entries := [{ tOldEntry 1 false with shot := none, nextPoint := 60000 }],
    injectors := Arm.afterReset.injectors.set 2 { held := true, ref := true, busy := false } }

theorem witness_CrossingIssuesShot :
    let e : AdditiveEntry := { tOldEntry 1 false with shot := none, nextPoint := 60000 }
    tCrossing.entries[0]? = some e ∧ tCrossing.state = .running ∧ e.state = .active ∧ e.shot = none ∧
    e.nextPoint < tCrossing.wild.net + tCrossing.ctrl.net ∧ 0 < e.item.interval ∧
    10 ≤ e.item.dose * e.item.interval / 100 ∧ tCrossing.injectors[e.item.injector].busy = false := by decide +kernel

/-- 7.12: that pass issues a shot of 24 with toggle 0 and moves the point to 80,000. -/
theorem test_pass_issues_shot :
    (tCrossing.passEntry 0).entries.map (fun e => (e.shot, e.nextPoint, e.target)) =
      [(some { volume := 24, toggle := false, age := 0 }, 80000, 36)] := by decide +kernel


/-! ### More states and operands, at the boundaries of the clauses -/

/-- The part with two copies of arm 1's totalizer save. -/
def tSaves (copy0 copy1 : SaveCopy) : State :=
  { tBase with nv := { Nonvolatile.blank with saves := Nonvolatile.blank.saves.set 1 { copy0 := copy0, copy1 := copy1 } } }

/-- R144: copies one apart either way, also over the wrap, further apart, and equal; one copy, beside a failing one and
beside a torn one; none, and none ever written. -/
theorem witness_EntriesLoad_totalizers :
    let one := tSaves (.holds (tImage 4294967295)) (.holds (tImage 0))
    let other := tSaves (.holds (tImage 9)) (.holds (tImage 8))
    let apart := tSaves (.holds (tImage 7)) (.holds (tImage 9))
    let equal := tSaves (.holds (tImage 7)) (.holds (tImage 7))
    (one.powered = true ∧ one.store.underWay = none ∧ one.nv.saves[(1 : Fin 8)].get 0 = .holds (tImage 4294967295) ∧
      one.nv.saves[(1 : Fin 8)].get 1 = .holds (tImage 0) ∧ (tImage 0).seq = ((tImage 4294967295).seq + 1) % 4294967296) ∧
    (other.store.underWay = none ∧ other.nv.saves[(1 : Fin 8)].get 0 = .holds (tImage 9) ∧
      other.nv.saves[(1 : Fin 8)].get 1 = .holds (tImage 8) ∧ (tImage 9).seq = ((tImage 8).seq + 1) % 4294967296) ∧
    (apart.store.underWay = none ∧ apart.nv.saves[(1 : Fin 8)].get 0 = .holds (tImage 7) ∧
      apart.nv.saves[(1 : Fin 8)].get 1 = .holds (tImage 9) ∧ (tImage 9).seq ≠ ((tImage 7).seq + 1) % 4294967296 ∧
      (tImage 7).seq ≠ ((tImage 9).seq + 1) % 4294967296 ∧ (tImage 7).seq < (tImage 9).seq) ∧
    (equal.nv.saves[(1 : Fin 8)].get 0 = equal.nv.saves[(1 : Fin 8)].get 1 ∧ (tImage 7).seq ≤ (tImage 7).seq) ∧
    ((tSaves .failing (.holds (tImage 7))).nv.saves[(1 : Fin 8)].get 0 = .failing) ∧
    (tLastSave.store.underWay = some (.save 1 0 (tImage 0)) ∧
      tLastSave.nv.saves[(1 : Fin 8)].get 1 = .holds (tImage 4294967295)) ∧
    ((tSaves .failing .unwritten).nv.saves[(1 : Fin 8)].get 0 = .failing) ∧
    (tBase.nv.saves[(1 : Fin 8)].get 0 = .unwritten ∧ tBase.nv.saves[(1 : Fin 8)].get 1 = .unwritten) := by
  decide +kernel

/-- R144: copy 1 is one ahead over the wrap; neither copy passes, and the fault flag is set. -/
theorem test_rst_restores_totalizers :
    (tAfter .rst (tSaves (.holds (tImage 4294967295)) (.holds (tImage 0)))).store.latest[1] = some 1 ∧
    ((tAfter .rst (tSaves .failing (.holds (tImage 7)))).meter 1 .wild).totals.grossL = 1204337 ∧
    (tAfter .rst (tSaves .failing .unwritten)).store.saveFault = true ∧ (tAfter .rst tBase).store.saveFault = false := by
  decide +kernel

/-- R156: a curve, an arm entry with another K10, one without, and a recipe. -/
theorem witness_StoreAccepted_metrological :
    tBase.Metrological (.curve 9 tCurve) ∧ tBase.Metrological (.armEntry 1 { tEntry with wildK10 := 100 }) ∧
    ¬ tBase.Metrological (.armEntry 1 tEntry) ∧ ¬ tBase.Metrological (.recipe 16 none) := by
  simp only [← State.metrological_iff]
  decide +kernel

/-- The part with HOLD set for every arm. -/
def tHeldLevels (st : ArmState) : State :=
  { tAt st with rack := { tBase.rack with
      levels := Vector.replicate 8 { runPermit := true, dropCause := .rack, hold := true } } }

/-- R89, R91, R93: a frame half a period after the last with no segment, which drops RUN_PERMIT, sets HOLD, or clears it
with the other resume conditions met and not. -/
theorem witness_FramesDecided_levels :
    let drops := tFrame 40 0 0 []
    let holds := tFrame 40 3 0 []
    let clears := tFrame 40 1 0 []
    tBase.Still ∧ (tAt .running).Still ∧ tPending.Still ∧ (tHeldLevels .held).Still ∧ byteAt clears 11 = 0 ∧
    tBase.passesChecks 5000 drops ∧
    ((tAt .running).rack.levels[(1 : Fin 8)].runPermit = true ∧ (drops.getD (3 + (1 : Fin 8).val) 0).getLsbD 0 = false ∧
      ((tAt .running).arm 1).state ≠ .startPending ∧ (tPending.arm 1).state = .startPending ∧
      (tPending.arm 1).ctx = some tContext) ∧
    ((holds.getD (3 + (1 : Fin 8).val) 0).getLsbD 0 = true ∧ (holds.getD (3 + (1 : Fin 8).val) 0).getLsbD 1 = true ∧
      (tAt .running).rack.levels[(1 : Fin 8)].hold = false ∧ ((tAt .running).arm 1).state = .running ∧
      ((tAt .authorized).arm 1).state ≠ .running) ∧
    ((clears.getD (3 + (1 : Fin 8).val) 0).getLsbD 0 = true ∧ (clears.getD (3 + (1 : Fin 8).val) 0).getLsbD 1 = false ∧
      (tHeldLevels .held).rack.levels[(1 : Fin 8)].hold = true ∧ ((tHeldLevels .held).arm 1).state = .held ∧
      (tHeldLevels .held).lines.permit[(1 : Fin 8)] = true ∧ (tHeldLevels .held).lines.estop = false ∧
      ((tHeldLevels .held).arm 1).ctx = some tContext) ∧
    (((tHeldLevels .holding).arm 1).state ≠ .held ∧ State.reset.lines.permit[(1 : Fin 8)] = false) := by
  unfold State.Still State.passesChecks
  refine ⟨by decide +kernel, by decide +kernel, by decide +kernel, by decide +kernel, by decide +kernel,
    ⟨by decide +kernel, by decide +kernel, by decide +kernel, by decide +kernel, by decide +kernel,
    by decide +kernel, ?_⟩, by decide +kernel, by decide +kernel, by decide +kernel, by decide +kernel⟩
  rintro l ⟨⟩
  decide

/-- R37: a test with one frame left and with none; R9: silence count 49 against a limit of 50, from either source. -/
theorem witness_InternalPeriodEvents_more :
    let test := fun n : Nat => { State.reset with trunk := { State.reset.trunk with
      state := .test, test := { state := .running, remaining := n, framesRun := 2, errors := 0 } } }
    (State.reset.trunk.answering = false ∧ (test 1).trunk.test.state = .running ∧ 0 < (test 1).trunk.test.remaining ∧
      ¬ 0 < (test 0).trunk.test.remaining ∧ (test 0).trunk.answering = false) ∧
    ((tSilent .running).powered = true ∧ (tSilent .running).rack.up = true ∧
      (tSilent .running).config.linkLossLimit ≤ (tSilent .running).rack.silence + 1 ∧
      ¬ (tSilent .running).config.linkLossLimit ≤ 48 + 1 ∧ (tSilent .running).timebase.internal = false ∧
      ({ tSilent .running with timebase := State.reset.timebase } : State).timebase.internal = true) := by decide +kernel

/-- A closing arm with and without LINK_LOST among its causes. -/
theorem witness_LinkLossEffects_closing :
    let s := fun x => { tWith x with rack := { tBase.rack with silence := 49 } }
    ((s (tClosing .normal [])).arm 1).state = .closing ∧ (s (tClosing .normal [])).rack.up = true ∧
    (s (tClosing .normal [])).rack.levels[(1 : Fin 8)].runPermit = true ∧
    EndCause.linkLost ∉ ((s (tClosing .normal [])).arm 1).secondary ∧
    ((s (tClosing .linkLost [])).arm 1).endReason = some .linkLost ∧
    EndCause.linkLost ∈ ((s (tClosing .normal [.linkLost])).arm 1).secondary ∧ (tBase.arm 1).state = .idle := by
  decide +kernel

/-- No batch, an AUTHORIZED one, and a running one with its first volume. -/
theorem witness_UpstreamFrameLayout :
    (tBase.arm 1).isOpen = false ∧ ((tAt .authorized).arm 1).isOpen = true ∧
    ((tAt .authorized).arm 1).ctx = some tContext ∧ ((tAt .authorized).arm 1).state = .authorized ∧
    (((tWith (tRatioArm 905100 94900 24)).arm 1).isOpen = true ∧
      ((tWith (tRatioArm 905100 94900 24)).arm 1).ctx = some tContext ∧
      ((tWith (tRatioArm 905100 94900 24)).arm 1).state ≠ .authorized ∧
      ((tWith (tRatioArm 905100 94900 24)).arm 1).state ≠ .startPending) ∧
    (tFlowing.arm 1).batchNumber < 65536 := by decide +kernel

/-- A test frame with an assigned and an unassigned slot; a frame whose injector 0 has no shot outstanding. -/
theorem witness_TrunkFrameLayout_more :
    let s := { tFlowing with trunk := { tFlowing.trunk with testFrame := true } }
    s.trunk.slotCount = 16 ∧ s.trunk.testFrame = true ∧ s.trunk.table[(4 : Fin 64)].role ≠ .unused ∧
    s.trunk.table[(0 : Fin 64)].role = .unused ∧ tFlowing.trunk.testFrame = false ∧
    tFlowing.trunk.table[(4 : Fin 64)] = { arm := 1, role := .wildMeter } ∧
    tFlowing.trunk.table[(8 : Fin 64)] = { arm := 1, role := .inj 0 } ∧ (tFlowing.arm 1).shotFor 0 = none := by
  decide +kernel

/-- The part with a meter's slot, LOST, last in the frame. -/
def tLastSlot : State :=
  { tWindow tBase 15 with trunk := { (tWindow tBase 15).trunk with
      table := tSlots.set 15 { arm := 1, role := .ctrlMeter },
      slots := tBase.trunk.slots.set 15 { toggle := some true, invalids := 25, up := false } } }

/-- A LOST slot, last of the frame, and a word of nine bytes. -/
theorem witness_InvalidOutcomeCounted_last :
    tLastSlot.WindowOpen 15 1 .ctrlMeter ∧ tLastSlot.trunk.slots[(15 : Fin 64)].invalids ≤ 25 ∧
    tLastSlot.trunk.slots[(15 : Fin 64)].up = false ∧ (List.replicate 9 (0 : Byte)).length ≠ 8 := by
  unfold State.WindowOpen
  decide +kernel

/-- The part at an emission that gives slot 6, the controlled meter of a batch and the slot of a transfer, no arm. -/
def tMoving : State :=
  { tLosing .running 6 with
    timebase := { internal := true, lastEventUs := 0, periodMs := 10 },
    tables := { tBase.tables with slots := Entry.loaded (tSlots.set 6 { arm := 0, role := .unused }) } }

/-- R30: a batch that does not need the slot, a transfer nobody waits for, and a change of assignment. -/
theorem witness_SlotLostEffects_more :
    (needs tContext.recipe (.inj 2) ∧ ∀ c, ((tAt .running).arm 1).ctx = some c → ¬ needs c.recipe (.inj 3)) ∧
    ({ Transfer.accepted 6 false [7] with wanted := false } : Transfer).wanted = false ∧
    (tMoving.powered = true ∧ tMoving.timebase.internal = true ∧
      tMoving.rack.silence + 1 < tMoving.config.linkLossLimit ∧ tMoving.trunk.answering = false ∧
      (¬ ∀ a r, Assigned tMoving.trunk.slotCount tMoving.trunk.table 6 a r ↔
        Assigned tMoving.config.slotCount tMoving.slotTable 6 a r) ∧
      (∀ a r, Assigned tMoving.trunk.slotCount tMoving.trunk.table 7 a r ↔
        Assigned tMoving.config.slotCount tMoving.slotTable 7 a r) ∧
      tMoving.trunk.slots[(6 : Fin 64)].up = true ∧
      Assigned tMoving.trunk.slotCount tMoving.trunk.table 6 1 (StreamPos.meterRole .ctrl) ∧
      tMoving.transfers[(1 : Fin 8)].inFlight = true ∧ tMoving.transfers[(1 : Fin 8)].slot = 6 ∧
      (tMoving.arm 1).ctx = some tContext ∧ needs tContext.recipe .ctrlMeter ∧ (tMoving.arm 1).state.flowing) := by
  refine ⟨⟨.inr (.inr (.inr (.inr ⟨_, .tail _ (.head _), rfl⟩))), ?_⟩, rfl, rfl, rfl, by decide +kernel, by decide +kernel,
    ?_, ?_, by decide +kernel, by unfold Assigned; decide +kernel, by decide +kernel, by decide +kernel, rfl, .inr (.inl rfl),
    .inl rfl⟩
  · rintro c ⟨⟩ (h | h | h | h | ⟨i, hi, h⟩)
    · cases h
    · cases h
    · cases h
    · cases h
    · have : i.injector = 3 := (Role.inj.inj h).symm
      rcases List.mem_cons.1 hi with rfl | hi
      · exact absurd this (by decide)
      · rcases List.mem_cons.1 hi with rfl | hi
        · exact absurd this (by decide)
        · cases hi
  · intro h
    have := ((h 1 .ctrlMeter).1 (by unfold Assigned; decide +kernel)).2.2
    exact absurd this (by decide +kernel)
  · intro a r
    have e : tMoving.trunk.table[(7 : Fin 64)] = tMoving.slotTable[(7 : Fin 64)] := by decide +kernel
    unfold Assigned
    rw [e]
    exact Iff.rfl

/-- The part whose last window, of an unassigned slot, closes the answer interval of a frame. -/
def tEnding (silence : Nat) (valid : Bool) (test : EchoTest) : State :=
  let s := tWindow (tAt .running) 15
  { s with trunk := { s.trunk with silence := silence, validTaken := valid, test := test } }

/-- The end of an answer interval: with a valid word, and without one at silence 24; a test whose frames have run out and
one with a frame left; start windows at 1 and 2; a transfer at age 98 and 99. -/
theorem witness_TrunkDownAndTestEnd_interval :
    let none_ := { tBase.trunk.test with state := .none, remaining := 0 }
    let ended := { none_ with state := .running }
    (∀ s ∈ [tEnding 24 true none_, tEnding 24 false none_, tEnding 24 false ended, tEnding 0 true ended,
        tEnding 0 true { ended with remaining := 1 }],
      s.powered = true ∧ s.trunk.answering = true ∧ s.trunk.nextWindow = (15 : Fin 64).val ∧
      s.trunk.slotCount = (15 : Fin 64).val + 1 ∧ s.trunk.table[(15 : Fin 64)].role = .unused) ∧
    (tEnding 24 false none_).trunk.state = .up ∧ (tEnding 24 false ended).trunk.test.state = .running ∧
    (∀ p, ∃ j, Assigned (tEnding 24 false none_).trunk.slotCount (tEnding 24 false none_).trunk.table j 1
      (StreamPos.meterRole p)) ∧
    (tEnding 24 false none_).transfers[(1 : Fin 8)].phase ≠ .reply ∧
    ((tEnding 24 false none_).arm 1).state ≠ .startPending ∧
    (tWaiting.transfers[(1 : Fin 8)].phase = .reply ∧ 100 ≤ tWaiting.transfers[(1 : Fin 8)].age + 1) ∧ 98 + 1 < 100 ∧
    (tPending.windows[(0 : Fin 4)].isOpen = true ∧ tPending.windows[(0 : Fin 4)].remaining ≤ 1) ∧
    tPending.windows[(1 : Fin 4)].isOpen = false := by
  refine ⟨by decide +kernel, by decide +kernel, by decide +kernel, ?_, by decide +kernel, by decide +kernel,
    by decide +kernel, by decide, by decide +kernel, by decide +kernel⟩
  intro p
  unfold Assigned
  cases p
  · exact ⟨4, by decide +kernel⟩
  · exact ⟨6, by decide +kernel⟩

/-- The part whose slot table gives arm 1 no WILD_VALVE, and the one that gives it INJ2 twice. -/
def tMissing : State := tSlotsAre (tSlots.set 5 { arm := 1, role := .unused })

def tDoubled : State := tSlotsAre (tSlots.set 10 { arm := 1, role := .inj 2 })

theorem test_roles_in_order :
    [.wildMeter, .ctrlMeter, .wildValve, .ctrlValve] ++ tRecipe.additives.map (fun i => Role.inj i.injector) =
      [.wildMeter, .ctrlMeter, .wildValve, .ctrlValve, .inj 0, .inj 2] := by decide

/-- The first roles are held, the third by no slot. -/
theorem witness_AuthorizeRefused_missing :
    (∀ x ∈ [Role.wildMeter, .ctrlMeter], ∃ k, ∀ j, tMissing.assigns j 1 x ↔ j = k) ∧
    ∀ j, ¬ tMissing.assigns j 1 .wildValve := by
  unfold State.assigns
  refine ⟨?_, by decide +kernel⟩
  simp only [List.mem_cons, List.not_mem_nil, or_false]
  rintro x (rfl | rfl)
  · exact ⟨4, by decide +kernel⟩
  · exact ⟨6, by decide +kernel⟩

/-- All roles but the last are held, the last by two slots. -/
theorem witness_AuthorizeRefused_conflict :
    (∀ x ∈ [Role.wildMeter, .ctrlMeter, .wildValve, .ctrlValve, .inj 0], ∃ k, ∀ j, tDoubled.assigns j 1 x ↔ j = k) ∧
    (9 : Fin 64) ≠ 10 ∧ tDoubled.assigns 9 1 (.inj 2) ∧ tDoubled.assigns 10 1 (.inj 2) := by
  unfold State.assigns
  refine ⟨?_, by decide, by decide +kernel, by decide +kernel⟩
  simp only [List.mem_cons, List.not_mem_nil, or_false]
  rintro x (rfl | rfl | rfl | rfl | rfl)
  · exact ⟨4, by decide +kernel⟩
  · exact ⟨6, by decide +kernel⟩
  · exact ⟨5, by decide +kernel⟩
  · exact ⟨7, by decide +kernel⟩
  · exact ⟨8, by decide +kernel⟩

/-- The two arms of the window of 5.11, both with their meters assigned, in the last window of a frame with a valid word. -/
theorem witness_WindowExpiryStartsOrReturns_interval :
    let w := tWindow tTwoPending 15
    let s : State := { w with trunk := { w.trunk with
      validTaken := true,
      table := (tSlots.set 1 { arm := 0, role := .wildMeter }).set 2 { arm := 0, role := .ctrlMeter } } }
    s.powered = true ∧ s.trunk.answering = true ∧ s.trunk.nextWindow = (15 : Fin 64).val ∧
    s.trunk.slotCount = (15 : Fin 64).val + 1 ∧ s.trunk.table[(15 : Fin 64)].role = .unused ∧ s.trunk.validTaken = true ∧
    s.trunk.test.state ≠ .running ∧ s.windows[(0 : Fin 4)].isOpen = true ∧ s.windows[(0 : Fin 4)].remaining ≤ 1 ∧
    (∀ a ∈ [(0 : Fin 8), 1], a ∈ s.windows[(0 : Fin 4)].pending ∧ (s.arm a).state = .startPending ∧
      (s.arm a).ctx = some tContext ∧ s.transfers[a].phase ≠ .reply ∧
      ∀ p, ∃ j, Assigned s.trunk.slotCount s.trunk.table j a (StreamPos.meterRole p)) ∧
    s.MayStart 1 tContext ∧ ¬ s.MayStart 0 tContext := by
  refine ⟨rfl, rfl, rfl, rfl, by decide +kernel, rfl, by decide +kernel, by decide +kernel, by decide +kernel, ?_, ?_, ?_⟩
  · simp only [List.mem_cons, List.not_mem_nil, or_false]
    rintro a (rfl | rfl)
    · refine ⟨by decide +kernel, rfl, rfl, by decide +kernel, ?_⟩
      unfold Assigned
      intro p
      cases p
      · exact ⟨1, by decide +kernel⟩
      · exact ⟨2, by decide +kernel⟩
    · refine ⟨by decide +kernel, rfl, rfl, by decide +kernel, ?_⟩
      unfold Assigned
      intro p
      cases p
      · exact ⟨4, by decide +kernel⟩
      · exact ⟨6, by decide +kernel⟩
  · have up : ∀ i : Fin 64, tBase.trunk.slots[i].up = true := by decide +kernel
    exact ⟨rfl, rfl, by decide +kernel, rfl, rfl, fun i _ _ _ => up i⟩
  · rintro ⟨_, _, h, _⟩
    exact absurd h (by decide +kernel)

/-- The part in the window of arm 1's wild meter, its temperature age as given and the other meter settled in a frame. -/
def tQuiet (x : Arm) (age settled : Nat) : State :=
  tWindow (((tWith x).setMeter 1 .wild { tMeter with age := age }).setMeter 1 .ctrl { tMeter with settledFrame := settled }) 4

theorem test_meter_silent (x : Arm) (age settled : Nat) : (tQuiet x age settled).MeterSilent 4 1 .wild := by
  unfold State.MeterSilent State.WindowOpen Assigned
  exact ⟨⟨rfl, rfl, rfl, (by decide : 4 < 16), (by decide +kernel : tSlots[(4 : Fin 64)] = { arm := 1, role := .wildMeter }),
    by decide⟩, (by decide : 4 + 1 < 16), .inr (by decide +kernel : tBase.trunk.slots[(4 : Fin 64)].invalids + 1 < 25), rfl,
    (by decide +kernel : ∀ j : Fin 64, 4 < j → ¬ (j.val < 16 ∧ StreamPos.meterRole .wild ≠ .unused ∧
      tSlots[j] = { arm := 1, role := StreamPos.meterRole .wild }))⟩

theorem test_closes_frame (x : Arm) : (tQuiet x 298 812).ClosesFrame 1 .wild := by
  refine ⟨(by decide : 299 < 300), fun q h => ?_⟩
  cases q
  · exact absurd rfl h
  · rfl

theorem test_frame_closes (x : Arm) : (tQuiet x 298 812).FrameCloses 4 1 .wild [] x x.zeroCount :=
  .inl ⟨rfl, test_meter_silent _ _ _, test_closes_frame _, rfl, rfl⟩

/-- R98: at the limit with a sample of the wild meter alone, with both at count 18, with VALVE_LEAK as the reason and
beside another; and in the silent window that closes the arm frame, at count 19. -/
theorem witness_SettlingFinalizes_limit :
    let at18 := tStill (tWith { tClosing .normal [] with zeroCount := 18 })
    let silent := tQuiet (tClosing .permitLost [.valveLeak]) 298 812
    ((at18.arm 1).state = .closing ∧ (at18.arm 1).ctx = some tContext ∧ (at18.arm 1).current = some (tRecord .started) ∧
      (at18.arm 1).endReason = some .normal ∧ at18.config.settleLimit ≤ (at18.arm 1).settleAge + 1 ∧
      (at18.meter 1 .wild).sample = some 0 ∧ (at18.meter 1 .ctrl).sample = some 0 ∧ (at18.arm 1).zeroCount < 19) ∧
    (({ tMeter with sample := some 3 } : Meter).sample ≠ some 0 ∧ ({ tMeter with sample := none } : Meter).sample = none) ∧
    (silent.FrameCloses 4 1 .wild [] (silent.arm 1) (silent.arm 1).zeroCount ∧ (silent.arm 1).StraightWithin ∧
      (silent.arm 1).state = .closing ∧ (silent.arm 1).endReason = some .permitLost ∧
      EndCause.valveLeak ∈ (silent.arm 1).secondary ∧ silent.config.settleLimit ≤ (silent.arm 1).settleAge + 1 ∧
      (silent.arm 1).zeroCount < 20 ∧ ∀ e ∈ (silent.arm 1).entries, e.shot = none) ∧
    ((tClosing .valveLeak []).endReason = some .valveLeak ∧
      ((tClosing .normal [.estop]).endReason = some .normal ∧ (tClosing .normal [.estop]).secondary ≠ [])) := by
  refine ⟨by decide +kernel, by decide +kernel, ⟨test_frame_closes _, ?_, by decide +kernel⟩,
    by decide +kernel⟩
  unfold Arm.StraightWithin
  decide +kernel

/-- R51, R92: a silent window takes the age to 299 and to 300 against a limit of 300, and the hold timer to its limit of
180,000 frames and one below it. -/
theorem witness_WatchesEndBatch_silent :
    let cold := fun age => tQuiet (tOpen .running) age 811
    let held := fun n => tQuiet { tOpen .held with holdTimer := n } 298 812
    ((∀ age, (cold age).MeterSilent 4 1 .wild) ∧
      (∀ age q, q ≠ .wild → ((cold age).meter 1 q).settledFrame ≠ (cold age).trunk.frameCounter) ∧
      (cold 299).config.tempHoldLimit ≤ 299 + 1 ∧ 298 + 1 < (cold 298).config.tempHoldLimit) ∧
    ((∀ n, (held n).FrameCloses 4 1 .wild [] ((held n).arm 1) 0 ∧ ((held n).arm 1).StraightWithin ∧
        ((held n).arm 1).state = .held ∧ ((held n).arm 1).zeroCount < 20 ∧
        ∀ e ∈ ((held n).arm 1).entries, e.shot = none) ∧
      (held 0).config.holdLimitS * 1000 / (held 0).config.periodMs = 179999 + 1) := by
  refine ⟨⟨fun _ => test_meter_silent _ _ _, fun age q h => ?_, by decide +kernel, by decide +kernel⟩,
    fun n => ⟨test_frame_closes _, ?_, rfl, (by decide : 0 < 20),
      (by decide +kernel : ∀ e ∈ (tOpen .held).entries, e.shot = none)⟩, by decide +kernel⟩
  · cases q
    · exact absurd rfl h
    · exact (by decide : 811 ≠ 812)
  · rintro ⟨⟩

/-- A HELD arm whose only entry has a shot of age 99, in the silent window that closes its frame; STOP in CLOSING. -/
theorem witness_ShotTimesOut_silent :
    (∀ bad stop, (tQuiet (tOldShot .held bad stop) 298 812).FrameCloses 4 1 .wild [] (tOldShot .held bad stop) 0 ∧
      (tOldShot .held bad stop).StraightWithin ∧
      (tOldShot .held bad stop).state = .held ∧ (tOldShot .held bad stop).entries[(0 : Fin 4).val]? = some (tOldEntry bad stop) ∧
      ∀ (j : Nat) (e : AdditiveEntry), (tOldShot .held bad stop).entries[j]? = some e → j ≠ (0 : Fin 4).val →
        e.shot = none) ∧
    (tOldShot .held 2 true).holdTimer + 1 < tBase.config.holdLimitS * 1000 / tBase.config.periodMs ∧
    1 < tBase.config.settleLimit ∧ (tOldShot .closing 2 true).state = .closing := by
  refine ⟨fun bad stop => ⟨test_frame_closes _, by rintro ⟨⟩, rfl, rfl, ?_⟩, by decide +kernel,
    by decide +kernel, rfl⟩
  intro j e h n
  cases j
  · exact absurd rfl n
  · cases h

/-- R163: a place of 8, a class of 2, an empty place, a place on an unassigned slot and on one that is LOST, a transfer in
flight, CERT LOCKED, and an open batch. -/
theorem witness_ServiceAccepted_refusals :
    let s := tAliased tBase
    let busy := { s with transfers := tBase.transfers.set 1 { tWaiting.transfers[1] with wanted := false } }
    let placed := { s with tables := { s.tables with
      aliases := s.tables.aliases.set 1 (Entry.loaded (blankAliasTable.set 3 (some 0))) } }
    (s.Ready ∧ 7 < (8 : Byte).toNat ∧ 1 < (2 : Byte).toNat ∧ (3 : Byte).toNat = (3 : Fin 8).val ∧ (1 : Byte).toNat ≤ 1 ∧
      s.tables.aliases[(1 : Fin 8)].work[(2 : Fin 8)] = none ∧ s.tables.aliases[(1 : Fin 8)].work[(3 : Fin 8)] = some 6) ∧
    (placed.Ready ∧ placed.tables.aliases[(1 : Fin 8)].work[(3 : Fin 8)] = some 0 ∧ ∀ r, ¬ placed.assigns 0 1 r) ∧
    (Trunk.afterReset 16 tSlots).slots[(6 : Fin 64)].up = false ∧
    (s.assigns 6 1 .ctrlMeter ∧ s.trunk.slots[(6 : Fin 64)].up = true ∧ busy.Ready ∧
      busy.transfers[(1 : Fin 8)].phase ≠ .idle ∧ s.transfers[(1 : Fin 8)].phase = .idle) ∧
    ({ s with lines := Lines.initial } : State).lines.certUnlocked = false ∧ s.lines.certUnlocked = true ∧
    ((tAliased (tAt .running)).arm 1).isOpen = true := by
  unfold State.Ready State.assigns
  refine ⟨by decide +kernel, ⟨by decide +kernel, by decide +kernel, ?_⟩, by decide +kernel, by decide +kernel,
    by decide +kernel, by decide +kernel, by decide +kernel⟩
  rintro r ⟨_, _, h⟩
  exact absurd (show (0 : Fin 8) = 1 from congrArg SlotEntry.arm h) (by decide)

/-- The part before a period event of source INTERNAL, with a transfer of arm 1. -/
def tExchange (x : Transfer) : State :=
  { tAt .running with
    timebase := { internal := true, lastEventUs := 0, periodMs := 10 }, transfers := tBase.transfers.set 1 x }

/-- R164: the class, a byte in the middle, the last byte, a reply request, no transfer. -/
theorem witness_ServiceTimesOut_out :
    let x := Transfer.accepted 6 true [7, 8]
    let sent := fun n : Nat => { x with classSent := true, next := n }
    (∀ y, (tExchange y).QuietPeriod) ∧ (∀ b : Fin 8, b ≠ 1 → (tExchange x).transfers[b].phase = .idle) ∧
    ((tExchange x).transfers[(1 : Fin 8)].slot.val < (tExchange x).trunk.slotCount) ∧
    ((tExchange x).transfers[(1 : Fin 8)].phase = .request ∧ (tExchange x).transfers[(1 : Fin 8)].classSent = false) ∧
    ((sent 0).phase = .request ∧ (sent 0).classSent = true ∧ (sent 0).next + 1 < (sent 0).request.length ∧
      (sent 1).next + 1 = (sent 1).request.length) ∧
    ({ sent 2 with phase := .reply } : Transfer).phase = .reply ∧
    (tExchange tBase.transfers[1]).transfers[(1 : Fin 8)].phase = .idle := by
  refine ⟨fun y => ⟨rfl, rfl, .inr (by decide +kernel : tBase.rack.silence + 1 < tBase.config.linkLossLimit),
      ⟨rfl, rfl, rfl⟩, .inl rfl⟩,
    by decide +kernel, by decide +kernel, by decide +kernel, by decide, rfl, by decide +kernel⟩

/-- R165: a word of slot 6 with ACTIVE, with ACTIVE and END, and without ACTIVE; a transfer with 31 and 32 reply bytes. -/
theorem witness_ServiceTimesOut_reply :
    let x := { tWaiting.transfers[1] with reply := List.replicate 32 1, count := 32 }
    let s := tWindow (tExchange x) 6
    let word := fun flags : Byte => tWord [flags, 0, 0x15, 0, 0, 0, 0x5A]
    s.WindowOpen 6 1 .ctrlMeter ∧ (6 : Fin 64).val + 1 < s.trunk.slotCount ∧
    (∀ f ∈ [(0x09 : Byte), 0x0D, 0x01], wordGood (word f) ∧
      s.trunk.slots[(6 : Fin 64)].toggle ≠ some (((word f).getD 0 0).getLsbD 0)) ∧
    ((word 0x09).getD 0 0).getLsbD 3 = true ∧ ((word 0x09).getD 0 0).getLsbD 2 = false ∧
    ((word 0x0D).getD 0 0).getLsbD 3 = true ∧ ((word 0x0D).getD 0 0).getLsbD 2 = true ∧
    ((word 0x01).getD 0 0).getLsbD 3 = false ∧
    (s.transfers[(1 : Fin 8)].phase = .reply ∧ s.transfers[(1 : Fin 8)].slot = 6 ∧
      s.transfers[(1 : Fin 8)].wanted = true ∧ ¬ s.transfers[(1 : Fin 8)].count < 32 ∧
      s.transfers[(1 : Fin 8)].reply.length < 256) ∧
    ({ x with reply := List.replicate 31 1, count := 31 } : Transfer).count < 32 ∧ x.unwanted.wanted = false := by
  unfold State.WindowOpen wordGood
  decide +kernel

/-- R164, R165: the last request byte goes with END and ACTIVE and opens the reply; a reply byte with END releases it. -/
theorem test_service_exchange :
    let x := Transfer.accepted 6 true [7, 8]
    let t := tAfter .timebaseInternalPeriod (tExchange { x with classSent := true, next := 1 })
    let u := tAfter (.answerWindowClose (tWord [0x0D, 0, 0x15, 0, 0, 0, 0x5A]))
      (tWindow (tExchange { tWaiting.transfers[1] with slot := 6 }) 6)
    (t.transfers[1].phase = .reply ∧ ((t.trunk.downstream.drop (5 + 36)).take 6).drop 4 = [8, 6]) ∧
    u.transfers[1].phase = .idle ∧ tPayload u = [0x5A] := by decide +kernel

/-- R110, R111: a straight load at 2,000 mL and at 2,001, RUNNING and CLOSING. -/
theorem witness_ControlledSetpointMoves_straight :
    let x := fun st ctrl => { tRatioArm 905100 ctrl 0 with state := st, ratio := { RatioCtl.opened 0 with maxDev := 0 } }
    (x .running 2000).ratio.mode = .straight ∧ (x .running 2000).ctrl.net ≤ 2000 ∧ 2000 < (x .closing 2001).ctrl.net ∧
    (x .closing 2001).state ≠ .running := by decide +kernel

/-- R123, R124, R126: a word of injector 2 that is BUSY, DONE and NO_FLOW; entries with no bad shot in a row, with two
under CONTINUE and under STOP; an echoed toggle that is not the shot's. -/
theorem witness_RepliesClassified_words :
    let s := fun bad stop => tWindow (tWith (tOldShot .running bad stop)) 9
    let word := fun status : Byte => tWord [0x01, status, 0x00, 0x18, 0, 0, 0]
    (∀ stop, (s 2 stop).WindowOpen 9 1 (.inj 2) ∧ (((s 2 stop).arm 1).entries.map (fun e => e.item.injector)).Nodup ∧
      (s 2 stop).trunk.testFrame = false ∧ (9 : Fin 64).val + 1 < (s 2 stop).trunk.slotCount ∧
      ((s 2 stop).arm 1).entries[0]? = some (tOldEntry 2 stop) ∧ (tOldEntry 2 stop).item.injector = 2 ∧
      (tOldEntry 2 stop).item.stop = stop ∧ (tOldEntry 2 stop).state ≠ .failed) ∧
    (∀ b ∈ [(1 : Byte), 2, 3, 6], wordGood (word b) ∧
      (s 2 true).trunk.slots[(9 : Fin 64)].toggle ≠ some (((word b).getD 0 0).getLsbD 0)) ∧
    byteAt (word 1) 1 % 4 < 2 ∧ byteAt (word 2) 1 % 4 = 2 ∧ byteAt (word 3) 1 % 4 = 3 ∧
    ((word 2).getD 1 0).getLsbD 2 = false ∧ ((word 6).getD 1 0).getLsbD 2 = true ∧
    (tOldEntry 2 true).shot = some { volume := 24, toggle := false, age := 99 } ∧
    classifyDone (numAt (word 2) 2 2) 24 15 = .good ∧ (tOldEntry 0 true).bad < 2 := by
  unfold State.WindowOpen wordGood
  decide +kernel

/-- R128: a deficit of exactly half a nominal, one below it, a busy injector, an outstanding shot. -/
theorem witness_CrossingIssuesShot_final :
    let x := fun wild injected => { tRatioArm wild 0 0 with entries := [
      { tOldEntry 0 false with shot := none, injected := injected }] }
    (x 20000 6).state.flowing ∧ (x 20000 6).entries[0]? = some { tOldEntry 0 false with shot := none, injected := 6 } ∧
    (tOldEntry 0 false).state = .active ∧ (x 20000 6).injectors[(tOldEntry 0 false).item.injector].busy = false ∧
    ((60 * 20 / 100 : Nat) : Int) ≤ 2 * (((20000 * 60 / 100000 : Nat) : Int) - (0 : Nat)) ∧
    ¬ ((60 * 20 / 100 : Nat) : Int) ≤ 2 * (((20000 * 60 / 100000 : Nat) : Int) - (7 : Nat)) ∧ 10 ≤ 60 * 20 / 100 ∧
    ((tOldEntry 0 false).shot ≠ none) := by
  unfold ArmState.flowing
  decide +kernel

/-- R128: the final shot of a NORMAL close with a deficit of 12, the nominal; none under another cause. -/
theorem test_final_shot :
    let x := { tRatioArm 20000 0 0 with entries := [{ tOldEntry 0 false with shot := none, injected := 0 }] }
    (x.raiseCause .normal).entries.map (fun e => (e.state, e.shot.map (·.volume))) = [(.dropped, some 12)] ∧
    (x.raiseCause .estop).entries.map (fun e => (e.state, e.shot)) = [(.dropped, none)] := by decide +kernel

/-! ### Forms widened after the second review -/

/-- Start windows that match the arms, in a form that is decided by evaluation. -/
theorem test_windows_match {s : State}
    (h : ∀ l : Fin 4, (∀ a, a ∈ s.windows[l].pending ↔
      (s.arm a).state = .startPending ∧ (s.arm a).ctx.map (·.settings.lane) = some l) ∧
      s.windows[l].pending.Nodup ∧ (s.windows[l].isOpen = true ↔ s.windows[l].pending ≠ [])) : s.WindowsMatch := by
  intro l
  simpa only [Option.map_eq_some_iff] using h l

theorem test_pending_matches : tPending.WindowsMatch := test_windows_match (by decide +kernel)

theorem test_two_pending_match : tTwoPending.WindowsMatch := test_windows_match (by decide +kernel)

theorem witness_ContextsStayMatched_windows :
    (tPending.WindowsMatch ∧ tTwoPending.WindowsMatch) ∧
    (∃ t, step { tPending with pending := [.cancel 1 []] } = .next t) ∧
    ∃ t, step { tTwoPending with pending := [.startWindowExpiry 0] } = .next t :=
  ⟨⟨test_pending_matches, test_two_pending_match⟩, ⟨_, rfl⟩, ⟨_, rfl⟩⟩

/-- A save and a commit with a save of arm 1 behind them; arm 1 has a latest copy, or none. -/
theorem witness_SaveCompletes_next :
    let saving := { tLastSave with store := { tLastSave.store with queue := [.save 1] } }
    let committing := { tCommitting with store := { tCommitting.store with queue := [.save 1] } }
    (saving.powered = true ∧ saving.store.underWay = some (.save 1 0 (tImage 0)) ∧ saving.store.queue = [.save 1]) ∧
    (committing.powered = true ∧ committing.store.underWay = some (.commit (.curve 9 tCurve)) ∧
      committing.store.queue = [.save 1] ∧ committing.store.latest[(1 : Fin 8)] = none) ∧
    saving.store.latest[(1 : Fin 8)] = some 1 ∧ saving.nv.saves[(1 : Fin 8)].get 1 = .holds (tImage 4294967295) := by
  decide +kernel

/-- R143: behind a save that completes copy 0 with number 0, the next takes copy 1 with number 1; behind one that fails it
takes copy 0 with number 0 again. -/
theorem test_next_save :
    let saving := { tLastSave with store := { tLastSave.store with queue := [.save 1] } }
    let zero := fun n => ({ seq := n, wild := MeterTotals.zero, ctrl := MeterTotals.zero } : SaveImage)
    (tAfter (.saveComplete true) saving).store.underWay = some (.save 1 1 (zero 1)) ∧
    (tAfter (.saveComplete false) saving).store.underWay = some (.save 1 0 (zero 0)) := by decide +kernel

/-- The frame with a FIRST segment, what it carries, and a part that is still when its period event begins; a period event
of source INTERNAL of such a part. -/
theorem witness_FramesDecided_emission :
    let f := tFrame 40 3 1 (List.replicate 32 7)
    let g : DownFrame :=
      { number := 40, commands := List.replicate 8 3, kind := .first, segment := List.replicate 32 7 }
    g.number = f.getD 2 0 ∧ g.commands = (f.drop 3).take 8 ∧ SegmentKind.ofCode (byteAt f 11) = some g.kind ∧
    g.segment = (f.drop 13).take (byteAt f 12) ∧
    (((({ tBase with nowUs := 5000 } : State).recordFrame g).cutWindows 65).takeLevels g |>.takeSegment g).Still ∧
    (tBase.Still ∧ State.reset.Still) := by
  unfold State.Still
  decide +kernel

/-- A closing arm that has PERMIT_LOST or ESTOP among its causes and one that has not; windows that stay open and close. -/
theorem witness_LinesAct_more :
    let s := fun reason secondary => tWith (tClosing reason secondary)
    ((s .normal []).powered = true ∧ (s .normal []).lines.permit[(1 : Fin 8)] = true ∧
      ((s .normal []).arm 1).state = .closing ∧ EndCause.permitLost ∉ ((s .normal []).arm 1).secondary) ∧
    (((s .permitLost []).arm 1).endReason = some .permitLost ∧
      EndCause.estop ∈ ((s .normal [.estop]).arm 1).secondary) ∧
    (tTwoPending.lines.permit[(1 : Fin 8)] = true ∧ (tTwoPending.arm 1).state = .startPending ∧
      (tTwoPending.arm 1).ctx = some tContext ∧ tTwoPending.windows[(0 : Fin 4)].pending.filter (· ≠ 1) = [0]) ∧
    tPending.windows[(0 : Fin 4)].pending.filter (· ≠ 1) = [] ∧ tPending.lines.estop = false ∧
    tPending.windows[(0 : Fin 4)].isOpen = true ∧ tPending.windows[(3 : Fin 4)].isOpen = false := by decide +kernel

/-- R86, R94: ESTOP returns both pending arms and closes their window. -/
theorem test_estop_closes_window :
    let t := tAfter (.estopChange true) tTwoPending
    t.windows[0] = { isOpen := false, remaining := 0, pending := [] } ∧
    (t.arm 0).state = .authorized ∧ (t.arm 1).sense = .estop := by decide +kernel

/-- A RUNNING arm in HIGH with a shot of age 98, whose remaining lies above TOP_OFF. -/
def tHigh (wild ctrl count : Nat) (mode : RatioMode) : Arm :=
  { tRatioArm wild ctrl count with
    phase := .high, wildSet := 2400,
    entries := [{ tOldEntry 0 false with shot := some { volume := 24, toggle := false, age := 98 } }],
    ratio := { (tRatioArm wild ctrl count).ratio with mode := mode } }

/-- The silent window that closes the frame of such an arm: nothing ends the batch, then each of NORMAL, UNCOMMANDED_FLOW and
RATIO_FAULT alone, at the edge of its condition. -/
theorem witness_RunningArmSteps_window :
    let quiet := tHigh 905100 94900 23 .ratio
    let closes := { tTopOff 800167 with phase := .high }
    let floods := tHigh 905100 2001 24 .straight
    let fails := tHigh 905100 94900 24 .ratio
    (∀ x, (tQuiet x 298 812).FrameCloses 4 1 .wild [] x x.zeroCount) ∧
    (∀ x ∈ [quiet, closes, floods, fails], x.state = .running ∧ x.ctx = some tContext ∧ x.phase ≠ .none ∧
      ∀ e ∈ x.entries, ∀ sh ∈ e.shot.toList, sh.age + 1 < 100) ∧
    (closes.remaining ≤ tContext.settings.topOff * 1000 ∧ closes.remaining = tContext.closeAhead ∧
      closes.ratio.mode = .ratio ∧ ¬ 50 < Int.natAbs (((800167 * 10000 / 7960167 : Nat) : Int) - 1000)) ∧
    (quiet.phase = .high ∧ ¬ quiet.remaining ≤ tContext.settings.topOff * 1000 ∧
      ¬ floods.remaining ≤ tContext.settings.topOff * 1000 ∧ floods.ratio.mode = .straight ∧ 2000 < floods.ctrl.net ∧
      ¬ 2000 < (tHigh 905100 2000 24 .straight).ctrl.net) ∧
    (50 < Int.natAbs (((94900 * 10000 / 1000000 : Nat) : Int) - 1000) ∧ 200 * 1000 ≤ fails.wild.net + fails.ctrl.net ∧
      fails.ratio.mode = .ratio ∧ tContext.recipe.persistence ≤ min 500 (24 + 1) ∧
      ¬ tContext.recipe.persistence ≤ min 500 (23 + 1)) ∧
    1 < tBase.config.settleLimit :=
  ⟨test_frame_closes, by decide +kernel, by decide +kernel,
    by decide +kernel, by decide +kernel, by decide +kernel⟩

/-- R88, R109: a cap of 900 L/min below the phase rate and the wild max is the operative term; one equal to the rate is
not, and one of 3,600 L/min is not. -/
theorem test_ratio_limited :
    let x := fun ctrlMax highRate => ({ tHigh 905100 100000 0 .ratio with
      ctx := some { tContext with settings := { tContext.settings with ctrlMax := ctrlMax, highRate := highRate } } } : Arm)
    (x 100 2400).runningStep.ratio.limited = true ∧ (x 100 900).runningStep.ratio.limited = false ∧
    (x 400 2400).runningStep.ratio.limited = false := by decide +kernel

/-- Crossings with a shot outstanding and with the injector busy, a pass exactly at the point, and an entry that is not
ACTIVE. -/
theorem witness_CrossingIssuesShot_withheld :
    let entry : EntryState → Option Shot → Nat → AdditiveEntry := fun st shot point =>
      { tOldEntry 1 false with state := st, shot := shot, nextPoint := point }
    let old : Shot := { volume := 24, toggle := true, age := 98 }
    let x := fun en busy => ({ tCrossing with
      entries := [en], injectors := tCrossing.injectors.set 2 { held := true, ref := true, busy := busy } } : Arm)
    ((x (entry .active none 60000) true).entries[0]? = some (entry .active none 60000) ∧
      (x (entry .active none 60000) true).state = .running ∧
      (x (entry .active none 60000) true).injectors[(2 : Fin 4)].busy = true ∧
      (entry .active none 60000).item.injector = 2 ∧ 60000 < tCrossing.wild.net + tCrossing.ctrl.net) ∧
    (old.age + 1 < 100 ∧ (entry .active (some old) 60000).shot = some old ∧
      0 < (entry .active (some old) 60000).item.interval) ∧
    tCrossing.wild.net + tCrossing.ctrl.net ≤ 60050 ∧ (entry .dropped none 60000).state ≠ .active := by decide +kernel

/-- R121, R122: the point goes on to 80,000 and no shot is issued. -/
theorem test_crossing_withheld :
    let x := fun (shot : Option Shot) busy => ({ tCrossing with
      entries := [{ tOldEntry 1 false with shot := shot, nextPoint := 60000 }],
      injectors := tCrossing.injectors.set 2 { held := true, ref := true, busy := busy } } : Arm)
    let old : Shot := { volume := 24, toggle := true, age := 98 }
    ((x none true).passEntry 0).entries.map (fun e => (e.shot, e.nextPoint)) = [(none, 80000)] ∧
    ((x (some old) false).passEntry 0).entries.map (fun e => (e.shot, e.nextPoint)) =
      [(some { old with age := 99 }, 80000)] := by decide +kernel

/-! ### Forms widened after the third review -/

/-- The part of `tQuiet` whose other meter has a sample of the frame, or none. -/
def tSampled (x : Arm) (other : Option Nat) : State :=
  (tQuiet x 298 812).setMeter 1 .ctrl { tMeter with settledFrame := 812, sample := other }

/-- A word of the wild meter of 3.10 whose total has not moved: a sample of IV 0. -/
def tZeroWord : List Byte := tWord [0x01, 0xFF, 0xE6, 0xF8, 0xCE, 0x00, 0x00]

/-- The meter after that word. -/
def tZeroMeter : Meter :=
  { tMeter with
    lastFrame := 812, window := [380, 380, 380, 380, 380, 380, 380, 0], flow := 1995, factor := curveFactor tCurve 1995,
    temp := some (-1842), age := 0, sample := some 0 }

/-- The increments after that word. -/
def tNoVolume : Increment := { iv := 0, gv := 0, nv := 0, temp := -1842, factor := curveFactor tCurve 1995 }

/-- The arm that the event finds: no volume added. -/
def tFound (x : Arm) : Arm :=
  { x with wild := { x.wild with weight := x.wild.weight + (-1842) * 0, lastFactor := curveFactor tCurve 1995 } }

/-- R90: the zero word closes the frame of an open batch; the count rises with a sample of 0, falls to 0 with another, and
stays with none. -/
theorem test_word_closes (x : Arm) (h : x.isOpen = true) (hx : x.ctx = some tContext) (other : Option Nat) :
    (tSampled x other).FrameCloses 4 1 .wild tZeroWord (tFound x)
      (match other with
        | none => x.zeroCount
        | some n => if n = 0 then min 20 (x.zeroCount + 1) else 0) := by
  have ho : ((tSampled x other).arm 1).isOpen = true := h
  have hk : (tSampled x other).constants 1 .wild =
      { k10 := 1234, points := tCurve, qmax := 2600, alpha := 1200, periodMs := 10 } := by
    have e : (tSampled x other).constants 1 .wild =
      { k10 := 1234, points := tCurve, periodMs := 10, 
        qmax := match (if x.isOpen then x.ctx else none) with | some c => c.settings.maxFlow .wild | none => 2600,
        alpha := match (if x.isOpen then x.ctx else none) with | some c => c.recipe.alpha .wild | none => 0 } := rfl
    rw [e, h, if_pos rfl, hx]; rfl
  have hw : (numAt tZeroWord 1 2 + 65536 - 65510) % 65536 = 0 := by decide +kernel
  have above : ¬ (tSampled x other).AboveLimit 1 .wild (numAt tZeroWord 1 2) := by
    rintro ⟨k, last, hc, hl, hlt⟩
    cases hl
    rw [hw] at hlt
    omega
  have seeds : ¬ (tSampled x other).Seeds 1 .wild := by
    rintro (e | ⟨e, _⟩ | ⟨e, _⟩)
    · cases e
    · cases e
    · rw [ho] at e; cases e
  refine .inr ⟨⟨⟨rfl, rfl, rfl, (by decide : 4 < 16), rfl, by decide⟩, (by decide : 4 + 1 < 16),
    (test_meter_silent x 298 812).2.2.2.2, ⟨rfl, by decide +kernel⟩,
    (by decide +kernel : tBase.trunk.slots[(4 : Fin 64)].toggle ≠ some ((tZeroWord.getD 0 0).getLsbD 0)), rfl, rfl,
    by decide +kernel, .inr above, tZeroMeter, tNoVolume, ?_, ?_, (by decide +kernel : 0 < tBase.config.tempHoldLimit), ?_⟩,
    ?_⟩
  · have hm : (tSampled x other).meter 1 .wild = { tMeter with age := 298 } := rfl
    have ht : signed16 (numAt tZeroWord 3 2) = -1842 := by decide +kernel
    have hs : byteAt tZeroWord 5 = 0 := by decide +kernel
    refine ⟨⟨by decide +kernel, rfl, rfl, rfl, rfl,
      (by decide +kernel : tZeroMeter.flow = min 65535 (tZeroMeter.window.sum * 60 / (8 * 10))), rfl⟩, ?_, rfl, rfl,
      fun e => absurd e (not_or.2 ⟨seeds, above⟩), ?_⟩
    · simp only [ht, hs]
      exact ⟨rfl, rfl⟩
    · intro _ k last hc hl
      rw [State.convertsWith_iff, hk] at hc
      subst hc
      cases hl
      simp only [hw, hm]
      unfold MeterTotals.inRange
      decide +kernel
  · simp only [State.Routes, ho, if_true]
    rfl
  · intro q hq
    cases q
    · exact absurd rfl hq
    · cases other with
      | none => rfl
      | some n => simp [tNoVolume]; rfl
  · intro q hq
    cases q
    · exact absurd rfl hq
    · rfl

/-- The zero word in a frame with a sample of 0 of the other meter: HOLDING at counts 18 and 19, with and without the resume
conditions, CLOSING at 18 and 19 and at the settle limit; with a sample of 5 the count is 0. -/
theorem witness_SettlingFinalizes_word :
    let holding := fun n => { tOpen .holding with zeroCount := n }
    let closing := fun n age => { tClosing .permitLost [] with zeroCount := n, settleAge := age }
    (∀ n, (tSampled (holding n) (some 0)).FrameCloses 4 1 .wild tZeroWord (tFound (holding n)) (min 20 (n + 1))) ∧
    (∀ n age, (tSampled (closing n age) (some 0)).FrameCloses 4 1 .wild tZeroWord (tFound (closing n age)) (min 20 (n + 1))) ∧
    (tSampled (holding 19) (some 5)).FrameCloses 4 1 .wild tZeroWord (tFound (holding 19)) 0 ∧
    (min 20 (18 + 1) < 20 ∧ 20 ≤ min 20 (19 + 1) ∧ (tFound (holding 18)).StraightWithin ∧
      (tFound (holding 18)).state = .holding ∧ (∀ e ∈ (tFound (holding 18)).entries, e.shot = none) ∧
      (tFound (holding 18)).holdTimer + 1 < tBase.config.holdLimitS * 1000 / tBase.config.periodMs) ∧
    ((tFound (closing 18 0)).StraightWithin ∧ (tFound (closing 18 0)).state = .closing ∧
      (tFound (closing 18 0)).current = some (tRecord .started) ∧
      (tFound (closing 18 0)).endReason = some .permitLost ∧ (∀ e ∈ (tFound (closing 18 0)).entries, e.shot = none) ∧
      (closing 18 0).settleAge + 1 < tBase.config.settleLimit ∧ tBase.config.settleLimit ≤ (closing 18 499).settleAge + 1) ∧
    tBase.rack.levels[(1 : Fin 8)].hold = false ∧ tBase.lines.permit[(1 : Fin 8)] = true := by
  refine ⟨fun n => test_word_closes _ rfl rfl _, fun n age => test_word_closes _ rfl rfl _, test_word_closes _ rfl rfl _, ?_⟩
  unfold Arm.StraightWithin
  decide +kernel

/-- R90, R92, R98: the count rises to 19 with the hold timer, falls to 0, and stays; a CLOSING arm's settle age rises. -/
theorem test_zero_word :
    let after := fun (x : Arm) other => (tAfter (.answerWindowClose tZeroWord) (tSampled x other)).arm 1
    let holding := fun n => { tOpen .holding with zeroCount := n }
    let closing := { tClosing .permitLost [] with zeroCount := 19, settleAge := 0 }
    (after (holding 18) (some 0)).zeroCount = 19 ∧ (after (holding 18) (some 0)).holdTimer = 1 ∧
    (after (holding 19) (some 5)).zeroCount = 0 ∧ (after (holding 19) none).zeroCount = 19 ∧
    (after closing (some 5)).zeroCount = 0 ∧ (after closing (some 5)).settleAge = 1 := by decide +kernel

/-- R24, R95: status FAULT and OK of the wild valve of arm 1; in a test frame nothing is handed over. -/
theorem witness_MeterWordProcessed_valve :
    let s := tWindow (tAt .running) 5
    let word := fun status : Byte => tWord [0x01, 0x32, status, 0, 0, 0, 0]
    s.WindowOpen 5 1 .wildValve ∧ (∀ p, Role.wildValve ≠ StreamPos.meterRole p) ∧
    (5 : Fin 64).val + 1 < s.trunk.slotCount ∧ wordGood (word 1) ∧ wordGood (word 0) ∧
    s.trunk.slots[(5 : Fin 64)].toggle ≠ some (((word 1).getD 0 0).getLsbD 0) ∧ s.trunk.testFrame = false ∧
    byteAt (word 1) 2 = 1 ∧ byteAt (word 0) 2 ≠ 1 ∧
    ({ s with trunk := { s.trunk with testFrame := true } } : State).trunk.testFrame = true ∧
    ((tAfter (.answerWindowClose (word 1)) s).arm 1).endReason = some .deviceFault ∧
    ((tAfter (.answerWindowClose (word 0)) s).arm 1).state = .running := by
  refine ⟨by unfold State.WindowOpen; decide +kernel, fun p => by cases p <;> decide, ?_⟩
  unfold wordGood
  decide +kernel

/-- R15: a response released at an emission by a change of assignment, and by the last window cut short of a frame, begins
in the upstream frame of the same period event. -/
theorem test_release_begins_at_once :
    let moved := tAfter .timebaseInternalPeriod tMoving
    let late := { tWindow (tExchange { tWaiting.transfers[1] with age := 99 }) 15 with
      rack := { tBase.rack with transaction := .held 1 } }
    let cut := tAfter .timebaseInternalPeriod late
    (moved.rack.upstream.drop 167).take 7 = [4, 5, 0x0E, 1, 11, 0, 0] ∧ moved.rack.transaction = .none ∧
    (cut.rack.upstream.drop 167).take 7 = [4, 5, 0x0E, 1, 26, 0, 0] ∧ cut.rack.transaction = .none := by decide +kernel

theorem witness_SlotLostEffects_released :
    tMoving.HeldMatches ∧ tMoving.transfers[(1 : Fin 8)].wanted = true := by
  unfold State.HeldMatches
  decide +kernel

/-- R11, R12, R14, R15: each kind of segment on an empty assembly and on an open one, in the expected frame and after a gap,
and during a transaction. -/
theorem witness_SegmentsBothWays_kinds :
    let open_ := { tBase with rack := { tBase.rack with assembly := some { buffer := [5], count := 1, expected := 40 } } }
    (tBase.rack.transaction = .none ∧ tBase.rack.assembly = none) ∧
    (open_.rack.transaction = .none ∧ open_.rack.assembly = some { buffer := [5], count := 1, expected := 40 } ∧
      [(5 : Byte)].length ≤ 243 ∧ (tSegment 40 .last [1]).number = 40 ∧ (tSegment 41 .only [1]).number ≠ 40) ∧
    tWaiting.rack.transaction ≠ .none ∧ (tBase.Ready ∧ (List.replicate 240 (0 : Byte)).length ≤ 240) := by
  unfold State.Ready
  decide +kernel

/-- R13: a request of 2 bytes, an unknown code, a payload length over 240, a count with a byte too many; an arm field of 1,
of 8, and none. -/
theorem witness_SegmentsBothWays_malformed :
    [(5 : Byte), 1].length < 3 ∧ (∀ code : RequestCode, code.code ≠ byteAt [0x12, 1, 0] 0) ∧
    240 < byteAt [0x0B, 255, 241] 2 ∧ 4 ≠ 3 + byteAt [0x05, 1, 0, 0] 2 ∧
    (2 ≤ [(5 : Byte), 1].length ∧ byteAt [5, 1] 1 = (1 : Fin 8).val) ∧ 7 < byteAt [5, 8] 1 ∧ ([] : List Byte).length < 2 :=
  ⟨by decide, fun code => by cases code <;> decide, by decide, by decide, by decide, by decide, by decide⟩

/-- R11, R12: LAST after a gap is discarded; ONLY against an open assembly is decided with the flag; a STORE of 2 bytes is
BAD_REQUEST and clears the latch. -/
theorem test_segments :
    let open_ := { tLatched .working tBase with
      rack := { tBase.rack with assembly := some { buffer := [5], count := 1, expected := 40 } } }
    let gap := open_.takeSegment (tSegment 41 .last [1, 0])
    let only := open_.takeSegment (tSegment 40 .only [5, 1, 0])
    let short := open_.takeSegment (tSegment 40 .only [0x0B, 255])
    (gap.rack.assembly = none ∧ gap.rack.discard = true ∧ gap.rack.transaction = .none) ∧
    only.rack.transaction = .sending [5, 0, 0, 1, 1, 0] 0 false ∧
    short.rack.transaction = .sending [0x0B, 1, 1, 1, 0] 0 false ∧ short.store.latch = .clear ∧
    short.rack.deviceSense = .badRequest := by decide +kernel

/-- A recorded batch in every field of R136: the average temperatures, the ratio status at the edge of the band, K10. -/
theorem test_record_completed :
    let x := { tClosing .permitLost [] with
      zeroCount := 19, ratio := RatioCtl.opened 1000,
      wild := { gross := 900000, net := 900000, weight := -1842 * 900000, lastFactor := 99982 },
      ctrl := { gross := 105000, net := 105000, weight := 0, lastFactor := 100060 } }
    let r := ((tAfter (.armSettled 1) (tStill (tWith x))).arm 1).last
    r.map (fun r => (r.wild.avgTemp, r.wild.factor, r.ctrl.k10, r.finalFraction)) =
      some (some (-1842), 99982, 1234, some 1044) ∧
    r.map (·.ratioStatus) = some .inBand ∧ r.map (·.startFrame) = some 5280 := by decide +kernel

/-- R138, R21: a READ_RECORD in a frame that cuts windows short, one of which finalizes arm 1 at the settle limit. -/
def tCutFinalize : State := tQuiet (tClosing .permitLost [.valveLeak]) 298 812

/-- Frame 40 with the request READ_RECORD of arm 1, selector 1, as its ONLY segment. -/
def tReadFrame : List Byte := tFrame 40 1 4 [6, 1, 1, 1]

theorem witness_RecordsRead_frame :
    tCutFinalize.Ready ∧ tCutFinalize.passesChecks 5000 tReadFrame ∧ byteAt tReadFrame 11 = 4 ∧
    (tReadFrame.drop 13).take (byteAt tReadFrame 12) = [6, armByte 1, 1, 1] ∧ tCutFinalize.rack.assembly = none ∧
    ∀ b : Fin 8, tCutFinalize.transfers[b].wanted = false := by
  unfold State.Ready State.passesChecks
  refine ⟨⟨rfl, rfl⟩, ⟨by decide +kernel, by decide +kernel, by decide +kernel, by decide +kernel, by decide +kernel,
    by decide +kernel, ?_⟩, by decide +kernel, by decide +kernel, rfl, by decide +kernel⟩
  intro l h
  cases h
  decide

/-- R138: a window cut short loses the wild meter's slot of a running batch (R26, R96); the record that the same frame reads
is CLOSING already, and the image of the arm in the answering frame shows CLOSING too. -/
theorem test_record_after_windows :
    let losing := { tWindow (tAt .running) 4 with
      trunk := { (tWindow (tAt .running) 4).trunk with
        slots := (tAt .running).trunk.slots.set 4 { toggle := some false, invalids := 24, up := true } } }
    let t := tAfter (.rackFrameReceived 5000 (tFrame 40 1 4 [6, 1, 1, 0])) losing
    (losing.arm 1).state = .running ∧ (t.rack.upstream.drop 167).take 6 = [1, 32, 6, 0, 0, 0] ∧
    t.rack.upstream.getD 174 0 = 3 ∧ t.rack.upstream.getD 27 0 = 6 := by decide +kernel

theorem witness_FramesDecided_open :
    tCutFinalize.powered = true ∧ tCutFinalize.passesChecks 5000 tReadFrame ∧ tCutFinalize.trunk.answering = true :=
  ⟨rfl, witness_RecordsRead_frame.2.1, rfl⟩
end Sys2Proof.Tests
end

section
/-! PROOFS. READ_COUNTERS and READ_TOTALS: where the fields of the two payloads stand, the slot state map by bits and the
totalizers by chunks of one arm; then what the two requests leave (R39, R142). -/

namespace Sys2Proof.Machine

/-! ## READ_COUNTERS -/

/-- Bit 0 is the first flag of the list. -/
theorem packBits_testBit (l : List Bool) (j : Nat) : (packBits l).testBit j = l.getD j false := by
  induction l generalizing j with
  | nil => simp [packBits]
  | cons b l ih =>
    have hb : packBits (b :: l) = Nat.bit b (packBits l) := by cases b <;> simp [packBits, Nat.bit, Nat.add_comm]
    rw [hb]
    cases j with
    | zero => simp
    | succ j => simp [Nat.testBit_bit_succ, ih]

/-- Bit `b` of byte `k` of the slot state map is the state of slot `8 * k + b` (spec 02 section 2.1). -/
theorem State.slotMapByte_testBit (s : State) (i : Fin 64) :
    (s.slotMapByte (i.val / 8)).testBit (i.val % 8) = s.trunk.slots[i].up := by
  have hi : 8 * (i.val / 8) + i.val % 8 = i.val := Nat.div_add_mod i.val 8
  have hb : i.val % 8 < 8 := Nat.mod_lt _ (by decide)
  simp [State.slotMapByte, packBits_testBit, hb, hi]

theorem State.slotMapByte_lt (s : State) (k : Nat) : s.slotMapByte k < 256 := by
  refine Nat.lt_pow_two_of_testBit (n := 8) _ fun j hj => ?_
  simp [State.slotMapByte, packBits_testBit, Nat.not_lt.mpr hj]

/-- The slot state map, byte by byte. -/
theorem State.slotMap_eq_map (s : State) :
    (List.range 8).flatMap (fun k => field 1 (s.slotMapByte k)) =
      (List.range 8).map (fun k => BitVec.ofNat 8 (s.slotMapByte k)) := by
  simp only [field_one (s.slotMapByte_lt _), ← List.map_eq_flatMap]

/-- The bits of a payload that ends with the slot state map. -/
theorem State.slotMap_of_drop (s : State) {p : List Byte} {o : Nat}
    (h : p.drop o = (List.range 8).flatMap (fun k => field 1 (s.slotMapByte k))) (i : Fin 64) :
    (p.getD (o + i.val / 8) 0).getLsbD (i.val % 8) = s.trunk.slots[i].up := by
  have hk : i.val / 8 < 8 := by omega
  have hb : i.val % 8 < 8 := Nat.mod_lt _ (by decide)
  have hbyte : p[o + i.val / 8]? = some (BitVec.ofNat 8 (s.slotMapByte (i.val / 8))) := by
    rw [← List.getElem?_drop, h, s.slotMap_eq_map]
    simp [hk]
  rw [List.getD_eq_getElem?_getD, hbyte, Option.getD_some, BitVec.getLsbD_ofNat, s.slotMapByte_testBit]
  simp [hb]

theorem State.countersPayload_length (s : State) : s.countersPayload.length = 17 := by
  simp [State.countersPayload, State.slotMap_eq_map, field_length]

/-- The layout of the READ_COUNTERS payload (spec 02 section 2.1, R39). -/
theorem State.countersPayload_layout {s : State} (h : s.CountersInRange) :
    let p := s.countersPayload
    byteAt p 0 = s.rack.errors ∧ byteAt p 1 = s.trunk.crcErrors ∧ byteAt p 2 = s.trunk.staleErrors ∧
    numAt p 3 2 = s.trunk.test.errors ∧ numAt p 5 2 = s.trunk.test.framesRun ∧
    byteAt p 7 = s.trunk.test.state.code ∧ byteAt p 8 = s.trunk.state.code ∧
    ∀ i : Fin 64, (p.getD (9 + i.val / 8) 0).getLsbD (i.val % 8) = s.trunk.slots[i].up := by
  obtain ⟨hrack, hcrc, hstale, htest, hframes, -⟩ := h
  intro p
  have h0 : p.drop 0 = s.countersPayload := rfl
  unfold State.countersPayload at h0
  simp only [List.append_assoc] at h0
  have h1 := drop_field (o' := 1) h0 rfl
  have h2 := drop_field (o' := 2) h1 rfl
  have h3 := drop_field (o' := 3) h2 rfl
  have h5 := drop_field (o' := 5) h3 rfl
  have h7 := drop_field (o' := 7) h5 rfl
  have h8 := drop_field (o' := 8) h7 rfl
  have h9 := drop_field (o' := 9) h8 rfl
  have htestCode : s.trunk.test.state.code < 256 := by cases s.trunk.test.state <;> decide
  have htrunkCode : s.trunk.state.code < 256 := by cases s.trunk.state <;> decide
  exact ⟨byteAt_of_drop (by omega) h0, byteAt_of_drop (by omega) h1, byteAt_of_drop (by omega) h2,
    carries_of_drop h3 (by omega), carries_of_drop h5 (by omega), byteAt_of_drop htestCode h7,
    byteAt_of_drop htrunkCode h8, s.slotMap_of_drop h9⟩

/-- The echo test after READ_COUNTERS, field by field (R39). -/
theorem EchoTest.afterRead_eq (t : EchoTest) :
    t.afterRead = { t with
      errors := 0, state := if t.state = .complete then .none else t.state,
      framesRun := if t.state = .complete then 0 else t.framesRun } := by
  unfold EchoTest.afterRead
  cases t.state <;> rfl

/-- An accepted READ_COUNTERS, whatever the counters hold. -/
theorem exec_readCounters {s : State} (h : s.Ready) :
    exec (.readCounters deviceByte []) s = .next (s.clearCounters.answered .readCounters s.countersPayload) :=
  exec_accepted (code := .readCounters) h (by decide) (by rw [State.countersPayload_length]; decide) rfl

/-! ## READ_TOTALS -/

/-- Chunk `k` of a list made of chunks of one length stands at `n * k`. -/
theorem drop_flatMap_of_length {α β : Type} {f : α → List β} {n : Nat} (hf : ∀ x, (f x).length = n) :
    ∀ {l : List α} {k : Nat} {x : α}, l[k]? = some x → ∃ r, (l.flatMap f).drop (n * k) = f x ++ r
  | y :: l, 0, x, h => ⟨l.flatMap f, by simp at h; simp [h]⟩
  | y :: l, k + 1, x, h => by
    obtain ⟨r, hr⟩ := drop_flatMap_of_length hf (l := l) (k := k) (x := x) (by simpa using h)
    refine ⟨r, ?_⟩
    rw [List.flatMap_cons, Nat.mul_succ, Nat.add_comm, ← List.drop_drop, List.drop_left' (hf y), hr]

theorem MeterTotals.encode_length (t : MeterTotals) : t.encode.length = 12 := by
  simp [MeterTotals.encode, field_length]

/-- The four values of a meter that stand at an offset are read there (R142). -/
theorem MeterTotals.numAt_of_drop {t : MeterTotals} (ht : t.inRange) {p r : List Byte} {o : Nat}
    (h : p.drop o = t.encode ++ r) :
    numAt p o 4 = t.grossL ∧ numAt p (o + 4) 2 = t.grossMl ∧ numAt p (o + 6) 4 = t.netL ∧
    numAt p (o + 10) 2 = t.netMl := by
  obtain ⟨hgrossL, hgrossMl, hnetL, hnetMl⟩ := ht
  unfold MeterTotals.encode at h
  simp only [List.append_assoc] at h
  have h4 := drop_field (o' := o + 4) h rfl
  have h6 := drop_field (o' := o + 6) h4 rfl
  have h10 := drop_field (o' := o + 10) h6 rfl
  exact ⟨carries_of_drop h (by omega), carries_of_drop h4 (by omega),
    carries_of_drop h6 (by omega), carries_of_drop h10 (by omega)⟩

/-- The 24 bytes of an arm: its wild meter, then its controlled one (R142). -/
theorem State.totalsPayload_drop_arm (s : State) (a : Fin 8) :
    ∃ r, s.totalsPayload.drop (24 * a.val) =
      (s.meter a .wild).totals.encode ++ ((s.meter a .ctrl).totals.encode ++ r) := by
  obtain ⟨r, hr⟩ := drop_flatMap_of_length (l := allArms) (n := 24)
    (f := fun a => (s.meter a .wild).totals.encode ++ (s.meter a .ctrl).totals.encode)
    (by simp [MeterTotals.encode_length]) (show allArms[a.val]? = some a by fin_cases a <;> rfl)
  exact ⟨r, by rw [← List.append_assoc]; exact hr⟩

theorem State.totalsPayload_length (s : State) : s.totalsPayload.length = 192 := by
  simp [State.totalsPayload, allArms, MeterTotals.encode_length]

/-- An accepted READ_TOTALS clears nothing. -/
theorem exec_readTotals {s : State} (h : s.Ready) :
    exec (.readTotals deviceByte []) s = .next (s.answered .readTotals s.totalsPayload) :=
  exec_accepted (code := .readTotals) h (by decide) (by rw [State.totalsPayload_length]; decide) rfl

/-! ## The statement -/

/-- Neither request takes a payload (R13, R39, R142). -/
theorem exec_refused_of_payload {s : State} {code : RequestCode} {p : List Byte} (h : s.Ready)
    (hc : code = .readCounters ∨ code = .readTotals) (hp : p ≠ []) :
    exec (Instr.ofRequest code deviceByte p) s = .next (s.refused code deviceByte .badRequest) := by
  have hok : code.payloadOk p = false := by rcases hc with rfl | rfl <;> simp [RequestCode.payloadOk, hp]
  exact exec_not_admitted s code deviceByte p h (by simp [Request.admitted, hok])

/-- Settles O35: from the payloads' layouts, the counters cleared as `EchoTest.afterRead_eq` says, and the length
check of R13. -/
theorem countersAndTotalsRead : Obligations.CountersAndTotalsRead := by
  unfold Obligations.CountersAndTotalsRead
  intro s hs
  refine ⟨fun hc => ⟨s.countersPayload, ?_, s.countersPayload_length, State.countersPayload_layout hc⟩,
    fun ht => ⟨s.totalsPayload, exec_readTotals hs, s.totalsPayload_length, fun a p => ?_⟩,
    fun p hp => ⟨exec_refused_of_payload hs (.inl rfl) hp, exec_refused_of_payload hs (.inr rfl) hp⟩⟩
  · rw [exec_readCounters hs, State.clearCounters]
    simp only [EchoTest.afterRead_eq]
    rfl
  · obtain ⟨r, hr⟩ := s.totalsPayload_drop_arm a
    cases p with
    | wild => exact MeterTotals.numAt_of_drop (ht a .wild) hr
    | ctrl => exact MeterTotals.numAt_of_drop (ht a .ctrl) (drop_after hr (MeterTotals.encode_length _) rfl)

end Sys2Proof.Machine
end

section
/-! PROOFS. The correction for the temperature of the liquid: the rounding and the clamp of spec 00 section 5, then the
coefficient CTL and the net volume that a counted sample gets from it (R52, R53). -/

namespace Sys2Proof.Machine

/-! ## Rounding and clamping -/

/-- A rounded quotient is the nearest integer, and at a tie the one away from zero: `Account.avgTemp` is this quotient,
so what R135 says of it holds of every dividend and divisor. -/
theorem roundDiv_nearest (n : Int) {d : Nat} (hd : 0 < d) :
    (2 * (d * roundDiv n d - n)).natAbs ≤ d ∧ (2 * (d * roundDiv n d - n) = d → 0 < n) ∧
    (2 * (d * roundDiv n d - n) = -d → n < 0) := by
  let acc : Account := { gross := d, net := 0, weight := n, lastFactor := 0 }
  have havg : acc.avgTemp = some (roundDiv n d) := if_neg hd.ne'
  obtain ⟨hgross, -⟩ | ⟨-, q, hq, hnearest⟩ := acc.avgTemp_averages
  · exact absurd hgross hd.ne'
  · obtain rfl : roundDiv n d = q := Option.some.inj (havg.symm.trans hq)
    exact hnearest

@[simp] theorem roundDiv_zero (d : Nat) : roundDiv 0 d = 0 := by
  obtain rfl | hd := Nat.eq_zero_or_pos d
  · rfl
  · have hq : (d : Int) / (2 * d) = 0 := Int.ediv_eq_zero_of_lt (by omega) (by omega)
    simpa [roundDiv] using hq

/-- The clamp between bounds in order, as a maximum and a minimum. -/
theorem clampInt_eq_max_min (x : Int) {lo hi : Int} (h : lo ≤ hi) : clampInt x lo hi = max lo (min hi x) := by
  unfold clampInt
  split
  · omega
  · split <;> omega

/-! ## The coefficient CTL -/

/-- CTL as an integer: the lower bound keeps it positive, so `toNat` loses nothing (R52). -/
theorem ctl_cast (alpha : Nat) (t : Int) :
    (ctl alpha t : Int) = max 90000 (min 110000 (100000 - roundDiv (alpha * (t - 1500)) 1000)) := by
  unfold ctl
  rw [clampInt_eq_max_min _ (by decide), Int.toNat_of_nonneg (by omega)]

/-- A liquid with coefficient 0 is not corrected (R52). -/
@[simp] theorem ctl_zero (t : Int) : ctl 0 t = 100000 := by
  zify
  simp [ctl_cast]

/-- The net volume of a counted delta, with T as R50 gives it (R53). -/
theorem Meter.convert_nv (m : Meter) (k : MeterConstants) (delta : Nat) :
    (m.convert k delta).2.nv =
      ((m.convert k delta).2.gv * ctl k.alpha (m.temp.getD 1500) + m.netRes) / 100000 := rfl

/-! ## The statement -/

/-- Settles O54: the rounded quotient is `roundDiv`, nearest by `roundDiv_nearest`; a tie has the sign of the product,
which is that of the temperature difference, as the coefficient is not negative. -/
theorem temperatureCorrection : Obligations.TemperatureCorrection := by
  unfold Obligations.TemperatureCorrection
  refine ⟨fun m k delta => ⟨roundDiv (k.alpha * (m.temp.getD 1500 - 1500)) 1000, ?_⟩, by decide, by decide, by decide⟩
  obtain ⟨hnear, htieUp, htieDown⟩ := roundDiv_nearest (k.alpha * (m.temp.getD 1500 - 1500)) (d := 1000) (by decide)
  have halpha : (0 : Int) ≤ k.alpha := Int.natCast_nonneg _
  refine ⟨hnear, fun h => pos_of_mul_pos_right (htieUp h) halpha, fun h => neg_of_mul_neg_right (htieDown h) halpha,
    ?_, fun h => ?_, ctl_cast _ _⟩
  · rw [Meter.convert_nv, ← ctl_cast]
    push_cast
    rfl
  · rw [← ctl_cast, h, ctl_zero]
    rfl

end Sys2Proof.Machine
end

section
/-! PROOFS. The trim of ratio control: one value for the whole range of deviations, its sign and where it vanishes, then
the demand and the pass with no trim to add (R107, R108). -/

namespace Sys2Proof.Machine

/-! ## The trim -/

/-- The clamp of the trim as a maximum and a minimum: the bounds are in order for every limit (R107). -/
theorem trim_eq_max_min (d : Int) (gain limit : Nat) :
    trim d gain limit = max (-(limit : Int)) (min (limit : Int) (Int.tdiv (d * gain) 1000)) :=
  clampInt_eq_max_min _ (by omega)

/-- Truncation toward zero and symmetric bounds make the trim odd, so each fact on one side of 0 gives the other. -/
theorem trim_neg (d : Int) (gain limit : Nat) : trim (-d) gain limit = -trim d gain limit := by
  rw [trim_eq_max_min, trim_eq_max_min, Int.neg_mul, Int.neg_tdiv]
  omega

theorem trim_nonneg {d : Int} (h : 0 ≤ d) (gain limit : Nat) : 0 ≤ trim d gain limit := by
  have hquot : 0 ≤ Int.tdiv (d * gain) 1000 := Int.tdiv_nonneg (by positivity) (by decide)
  rw [trim_eq_max_min]
  omega

theorem trim_nonpos {d : Int} (h : d ≤ 0) (gain limit : Nat) : trim d gain limit ≤ 0 := by
  have hneg := trim_nonneg (Int.neg_nonneg.mpr h) gain limit
  rw [trim_neg] at hneg
  omega

/-- A product of less than 1,000 is truncated to 0 (R107). -/
theorem trim_eq_zero_of_lt {d : Int} {gain : Nat} (h : d.natAbs * gain < 1000) (limit : Nat) :
    trim d gain limit = 0 := by
  have hquot : Int.tdiv (d * gain) 1000 = 0 := by
    rw [← Int.natAbs_eq_zero, Int.natAbs_tdiv, Int.natAbs_mul]
    exact Nat.div_eq_of_lt h
  rw [trim_eq_max_min, hquot]
  omega

@[simp] theorem trim_gain_zero (d : Int) (limit : Nat) : trim d 0 limit = 0 := trim_eq_zero_of_lt (by simp) limit

@[simp] theorem trim_limit_zero (d : Int) (gain : Nat) : trim d gain 0 = 0 := by
  rw [trim_eq_max_min]
  omega

theorem trim_eq_zero_of_off {gain limit : Nat} (h : gain = 0 ∨ limit = 0) (d : Int) : trim d gain limit = 0 := by
  obtain rfl | rfl := h
  · exact trim_gain_zero d limit
  · exact trim_limit_zero d gain

/-! ## The demand and the pass -/

/-- The demand as an integer: the lower bound keeps it from being negative, so `toNat` loses nothing (R108). -/
theorem ctrlDemand_cast (c : Context) (qW w cNet : Nat) :
    (ctrlDemand c qW w cNet : Int) = max 0 (min (c.settings.ctrlMax : Int)
      (feedforward qW c.recipe.ctrlFraction +
        trim (deviation w cNet c.recipe.ctrlFraction) c.recipe.gain c.recipe.trimLimit)) := by
  rw [ctrlDemand, clampInt_eq_max_min _ (by omega), Int.toNat_of_nonneg (by omega)]

/-- With no trim the demand is the feedforward within its clamp (R107). -/
theorem ctrlDemand_of_trim_eq_zero {c : Context} {w cNet : Nat} (qW : Nat)
    (h : trim (deviation w cNet c.recipe.ctrlFraction) c.recipe.gain c.recipe.trimLimit = 0) :
    ctrlDemand c qW w cNet = min c.settings.ctrlMax (feedforward qW c.recipe.ctrlFraction) := by
  have hcast := ctrlDemand_cast c qW w cNet
  rw [h] at hcast
  omega

/-- A pass in mode RATIO that an arm receives in RUNNING and still makes in RUNNING: set-point, then band check
(R105 to R112). -/
theorem Arm.ratioAct_running {x : Arm} {c : Context} (hstate : x.state = .running) (hctx : x.ctx = some c)
    (hmode : x.ratio.mode = .ratio) (qW : Nat) : x.ratioAct true qW = (x.ratioSetpoint c qW).bandCheck c := by
  simp [Arm.ratioAct, hmode, hctx, hstate]

@[simp] theorem Arm.ratioSetpoint_maxDev (x : Arm) (c : Context) (qW : Nat) :
    (x.ratioSetpoint c qW).ratio.maxDev = min 4294967295 (max x.ratio.maxDev
      (deviation x.wild.net x.ctrl.net c.recipe.ctrlFraction).natAbs) := rfl

/-! ## The statement -/

/-- Settles O57: the sign from the truncation on one side and oddness on the other; a gain or a limit of 0 takes the trim
out of the demand, and leaves the maximum deviation and the band check of the pass as for any gain. -/
theorem trimComputed : Obligations.TrimComputed := by
  unfold Obligations.TrimComputed
  refine ⟨fun d gain limit => ⟨trim_eq_max_min d gain limit, fun h => trim_nonneg h gain limit,
      fun h => trim_nonpos h gain limit, fun h => trim_eq_zero_of_off h d, fun h => trim_eq_zero_of_lt h limit,
      fun h => trim_eq_zero_of_lt (by omega) limit⟩,
    fun x c q hstate hctx hmode hoff => ⟨?_, x.ratioSetpoint_maxDev c q, Arm.ratioAct_running hstate hctx hmode q⟩⟩
  exact ctrlDemand_of_trim_eq_zero q (trim_eq_zero_of_off hoff _)

end Sys2Proof.Machine
end

section
/-! PROOFS. Replies to shots: what the end of a shot leaves of its entry and of its arm, which entry answers a word, and
the word's way through the close of its window (R118, R123, R124, R126). -/

namespace Sys2Proof.Machine

/-! ## Classes and volumes -/

theorem classifyDone_of_within {m v t : Nat} (h : ((m : Int) - v).natAbs * 100 ≤ v * t) :
    classifyDone m v t = .good :=
  if_pos h

theorem classifyDone_of_below {m v t : Nat} (h : v * t < ((m : Int) - v).natAbs * 100) (hlt : m < v) :
    classifyDone m v t = .short := by
  rw [classifyDone, if_neg h.not_ge, if_pos hlt]

theorem classifyDone_of_above {m v t : Nat} (h : v * t < ((m : Int) - v).natAbs * 100) (hlt : v < m) :
    classifyDone m v t = .long := by
  rw [classifyDone, if_neg h.not_ge, if_neg hlt.asymm]

/-- Nothing measured is off by the whole volume, which a tolerance below 100 does not allow (R124). -/
theorem classifyDone_zero {v t : Nat} (hv : 0 < v) (ht : t < 100) : classifyDone 0 v t = .short := by
  simp [classifyDone, hv, ht]

theorem ShotClass.isBad_iff {cls : ShotClass} : cls.isBad = true ↔ cls = .short ∨ cls = .missed := by
  cases cls <;> decide

/-- The lower clamp keeps a shot volume positive, so `toNat` loses nothing (R121). -/
theorem shotVolume_cast (v : Int) {nominal : Nat} (h : 10 ≤ 2 * nominal) :
    (shotVolume v nominal : Int) = max 10 (min (2 * (nominal : Int)) v) := by
  rw [shotVolume, clampInt_eq_max_min _ (by omega), Int.toNat_of_nonneg (by omega)]
  rfl

/-! ## The entry whose shot ends -/

/-- The count of class `c` after a shot of class `cls` (R124). -/
def ShotClass.raised (cls c : ShotClass) (n : Nat) : Nat := if c = cls then satSucc 65535 n else n

/-- The entry after a shot of class `cls` that leaves the entry's state as it is (R123 to R126). -/
def AdditiveEntry.ended (e : AdditiveEntry) (cls : ShotClass) (measured : Nat) : AdditiveEntry :=
  { e with
    shot := none, injected := e.injected + measured, bad := if cls = .short ∨ cls = .missed then e.bad + 1 else 0,
    good := cls.raised .good e.good, short := cls.raised .short e.short, long := cls.raised .long e.long,
    missed := cls.raised .missed e.missed }

/-- The end of a shot fails the entry exactly at the third bad shot in a row (R126). -/
theorem AdditiveEntry.endShot_eq {e : AdditiveEntry} (h : e.bad ≤ 2) (cls : ShotClass) (m : Nat) :
    e.endShot cls m =
      { e.ended cls m with state := if cls.isBad = true ∧ e.bad = 2 then .failed else e.state } := by
  have hsat : satSucc 3 e.bad = e.bad + 1 := if_pos (by omega)
  cases cls <;> simp [AdditiveEntry.endShot, AdditiveEntry.ended, AdditiveEntry.count, ShotClass.raised,
    ShotClass.isBad, hsat]

theorem AdditiveEntry.endShot_eq_ended {e : AdditiveEntry} {cls : ShotClass} (hbad : e.bad ≤ 2)
    (h : ¬ cls.isBad = true ∨ e.bad < 2) (m : Nat) : e.endShot cls m = e.ended cls m := by
  rw [AdditiveEntry.endShot_eq hbad, if_neg fun ⟨hcls, htwo⟩ => h.elim (· hcls) htwo.not_lt]
  rfl

theorem AdditiveEntry.endShot_eq_failed {e : AdditiveEntry} {cls : ShotClass} (hbad : e.bad = 2)
    (h : cls.isBad = true) (m : Nat) : e.endShot cls m = { e.ended cls m with state := .failed } := by
  rw [AdditiveEntry.endShot_eq (by omega), if_pos ⟨h, hbad⟩]

@[simp] theorem AdditiveEntry.endShot_item (e : AdditiveEntry) (cls : ShotClass) (m : Nat) :
    (e.endShot cls m).item = e.item := by
  cases cls <;> rfl

@[simp] theorem AdditiveEntry.dropped_item (e : AdditiveEntry) : e.dropped.item = e.item := by
  unfold AdditiveEntry.dropped
  split <;> rfl

/-! ## The arm whose shot ends -/

section
variable {x : Arm} {k : Nat} {e : AdditiveEntry} {cls : ShotClass}

/-- The shot's end leaves the entry in its state: nothing but the entry changes. -/
theorem Arm.endShot_of_kept (hbad : e.bad ≤ 2) (h : ¬ cls.isBad = true ∨ e.bad < 2) (m : Nat) :
    x.endShot k e cls m = x.setEntry k (e.ended cls m) := by
  have hstate : ¬ ((e.ended cls m).state = .failed ∧ e.state ≠ .failed) := fun ⟨hf, hn⟩ => hn hf
  simp only [Arm.endShot, AdditiveEntry.endShot_eq_ended hbad h, if_neg hstate]

/-- The third bad shot in a row fails the entry, which ends the batch under STOP (R126). -/
theorem Arm.endShot_of_failing_stop (hcls : cls.isBad = true) (hbad : e.bad = 2) (hstate : e.state ≠ .failed)
    (hstop : e.item.stop = true) (m : Nat) :
    x.endShot k e cls m = (x.setEntry k { e.ended cls m with state := .failed }).raiseCause .additiveFail := by
  simp only [Arm.endShot, AdditiveEntry.endShot_eq_failed hbad hcls, hstop]
  exact if_pos ⟨trivial, hstate⟩

/-- The third bad shot in a row fails the entry, which raises the additive fault flag under CONTINUE (R126). -/
theorem Arm.endShot_of_failing_continue (hcls : cls.isBad = true) (hbad : e.bad = 2) (hstate : e.state ≠ .failed)
    (hstop : e.item.stop = false) (m : Nat) :
    x.endShot k e cls m = { x.setEntry k { e.ended cls m with state := .failed } with additiveFault := true } := by
  simp only [Arm.endShot, AdditiveEntry.endShot_eq_failed hbad hcls, hstop]
  exact if_pos ⟨trivial, hstate⟩

end

/-- A cause other than NORMAL leaves the entries, or drops them without a final shot (R128). -/
theorem Arm.raiseCause_entries (x : Arm) {c : EndCause} (hc : c ≠ .normal) :
    (x.raiseCause c).entries = x.entries ∨ (x.raiseCause c).entries = x.entries.map AdditiveEntry.dropped := by
  have hclosing : (x.enterClosing c).entries = x.entries.map AdditiveEntry.dropped := by
    simp only [Arm.enterClosing, beq_false_of_ne hc]
    split <;> rfl
  have hsecond : (x.addSecondary c).entries = x.entries := by
    unfold Arm.addSecondary
    dsimp only
    split
    · rfl
    · split <;> rfl
  by_cases hflow : x.state = .running ∨ x.state = .holding ∨ x.state = .held
  · rw [Arm.raiseCause_flowing x c hflow]
    exact .inr hclosing
  · by_cases hlast : x.state = .closing
    · rw [Arm.raiseCause_closing x c hlast]
      exact .inl hsecond
    · rw [Arm.raiseCause_other x c (by tauto)]
      exact .inl rfl

/-- A FAILED entry stays as it is when its arm takes a cause other than NORMAL (R128). -/
theorem Arm.raiseCause_getElem?_failed {x : Arm} {c : EndCause} {k : Nat} {e : AdditiveEntry} (hc : c ≠ .normal)
    (hk : x.entries[k]? = some e) (hfailed : e.state = .failed) : (x.raiseCause c).entries[k]? = some e := by
  have hdropped : e.dropped = e := if_pos hfailed
  rcases x.raiseCause_entries hc with h | h
  · rw [h, hk]
  · rw [h, List.getElem?_map, hk, Option.map_some, hdropped]

/-! ## The entry that answers a word -/

/-- The injectors of the entries, in list order; no two entries share one (R73, R117). -/
def Arm.entryInjectors (x : Arm) : List (Fin 4) := x.entries.map (fun e => e.item.injector)

theorem Arm.entryInjectors_setEntry {x : Arm} {k : Nat} {e f : AdditiveEntry} (hk : x.entries[k]? = some e)
    (hitem : f.item = e.item) : (x.setEntry k f).entryInjectors = x.entryInjectors := by
  obtain ⟨hlt, rfl⟩ := List.getElem?_eq_some_iff.mp hk
  have hself := List.set_getElem_self (as := x.entryInjectors) (i := k) (by simpa [Arm.entryInjectors] using hlt)
  simpa [Arm.entryInjectors, Arm.setEntry, hitem] using hself

theorem Arm.entryInjectors_raiseCause (x : Arm) {c : EndCause} (hc : c ≠ .normal) :
    (x.raiseCause c).entryInjectors = x.entryInjectors := by
  unfold Arm.entryInjectors
  rcases x.raiseCause_entries hc with h | h <;> simp [h]

theorem Arm.entryInjectors_endShot {x : Arm} {k : Nat} {e : AdditiveEntry} (hk : x.entries[k]? = some e)
    (cls : ShotClass) (m : Nat) : (x.endShot k e cls m).entryInjectors = x.entryInjectors := by
  have hset : (x.setEntry k (e.endShot cls m)).entryInjectors = x.entryInjectors :=
    Arm.entryInjectors_setEntry hk (e.endShot_item cls m)
  unfold Arm.endShot
  dsimp only
  split
  · split
    · rw [Arm.entryInjectors_raiseCause _ (by decide), hset]
    · exact hset
  · exact hset

/-- The entry takes a word of injector `j` as the reply to its shot (R123). -/
def AdditiveEntry.Answers (e : AdditiveEntry) (j : Fin 4) (st : InjectorStatus) (echo : Bool) : Prop :=
  e.item.injector = j ∧ (st = .done ∨ st = .noFlow) ∧ ∃ sh, e.shot = some sh ∧ sh.toggle = echo

section
variable {x : Arm} {j : Fin 4} {st : InjectorStatus} {echo : Bool} {m k : Nat} {e : AdditiveEntry}

theorem Arm.replyEntry_of_not_answers (h : ∀ e, x.entries[k]? = some e → ¬ e.Answers j st echo) :
    Arm.replyEntry j st echo m x k = x := by
  unfold Arm.replyEntry
  split
  · rfl
  next e hk =>
    split
    · rfl
    next sh hshot =>
      split
      · next hmatch =>
        cases st with
        | idle | busy => rfl
        | done => exact absurd ⟨hmatch.1, .inl rfl, sh, hshot, hmatch.2.symm⟩ (h e hk)
        | noFlow => exact absurd ⟨hmatch.1, .inr rfl, sh, hshot, hmatch.2.symm⟩ (h e hk)
      · rfl

/-- A reply ends the shot, with the class of R124. -/
theorem Arm.replyEntry_of_reply {sh : Shot} (hk : x.entries[k]? = some e) (hj : e.item.injector = j)
    (hshot : e.shot = some sh) (hst : st = .done ∨ st = .noFlow) (m : Nat) :
    Arm.replyEntry j st sh.toggle m x k =
      x.endShot k e (if st = .done then classifyDone m sh.volume e.item.tolerance else .missed) m := by
  rcases hst with rfl | rfl <;> simp [Arm.replyEntry, hk, hshot, hj]

theorem Arm.entryInjectors_replyEntry (x : Arm) (j : Fin 4) (st : InjectorStatus) (echo : Bool) (m k : Nat) :
    (Arm.replyEntry j st echo m x k).entryInjectors = x.entryInjectors := by
  by_cases h : ∀ e, x.entries[k]? = some e → ¬ e.Answers j st echo
  · rw [Arm.replyEntry_of_not_answers h]
  · push Not at h
    obtain ⟨e, hk, hj, hst, sh, hshot, rfl⟩ := h
    rw [Arm.replyEntry_of_reply hk hj hshot hst, Arm.entryInjectors_endShot hk]

/-- Where entry `k` is the one of injector `j`, no other entry takes a word of it. -/
theorem Arm.replyEntry_of_ne (hnodup : x.entryInjectors.Nodup) (hk : x.entryInjectors[k]? = some j) {l : Nat}
    (hl : l ≠ k) : Arm.replyEntry j st echo m x l = x := by
  refine Arm.replyEntry_of_not_answers fun e he hanswers => hl ?_
  have hlt : l < x.entryInjectors.length := by
    simpa [Arm.entryInjectors] using (List.getElem?_eq_some_iff.mp he).1
  refine (List.getElem?_inj hlt hnodup).mp ?_
  rw [hk, ← hanswers.1, Arm.entryInjectors, List.getElem?_map, he, Option.map_some]

end

/-- A fold in which only the item `k` acts, before and after it has acted. -/
theorem foldl_eq_of_only {α β : Type} {f : β → α → β} {x : β} {k : α} {l : List α} (hl : l.Nodup) (hk : k ∈ l)
    (hbefore : ∀ a, a ≠ k → f x a = x) (hafter : ∀ a, a ≠ k → f (f x k) a = f x k) : l.foldl f x = f x k := by
  obtain ⟨l₁, l₂, rfl⟩ := List.append_of_mem hk
  have hother : ∀ a ∈ l₁ ++ l₂, a ≠ k := by
    rintro a ha rfl
    exact (List.nodup_cons.mp (List.nodup_middle.mp hl)).1 ha
  have hfix : ∀ (y : β) (l' : List α), (∀ a ∈ l', f y a = y) → l'.foldl f y = y := by
    intro y l' h
    induction l' with
    | nil => rfl
    | cons a l' ih => rw [List.foldl_cons, h a (by simp), ih fun b hb => h b (by simp [hb])]
  rw [List.foldl_append, hfix x l₁ fun a ha => hbefore a (hother a (by simp [ha])), List.foldl_cons,
    hfix (f x k) l₂ fun a ha => hafter a (hother a (by simp [ha]))]

/-! ## The word at its arm -/

/-- The arm with the toggles and the busy mark of injector `j` after a valid word of it (R118). -/
def Arm.markWord (x : Arm) (j : Fin 4) (st : InjectorStatus) (echo : Bool) : Arm :=
  { x with injectors := x.injectors.set j (x.injectors[j].afterWord st echo) }

theorem Arm.injectorWord_of_not_answers {x : Arm} {j : Fin 4} {st : InjectorStatus} {echo : Bool}
    (h : ∀ e ∈ x.entries, ¬ e.Answers j st echo) (m : Nat) : x.injectorWord j st echo m = x.markWord j st echo :=
  List.foldl_fixed' (a := x.markWord j st echo)
    (fun _ => Arm.replyEntry_of_not_answers fun e hk => h e (List.mem_of_getElem? hk)) _

/-- A reply ends the shot of the one entry of its injector: no other entry takes the word (R73, R117, R123). -/
theorem Arm.injectorWord_of_reply {x : Arm} {j : Fin 4} {st : InjectorStatus} {k : Nat} {e : AdditiveEntry} {sh : Shot}
    (hnodup : x.entryInjectors.Nodup) (hk : x.entries[k]? = some e) (hj : e.item.injector = j)
    (hshot : e.shot = some sh) (hst : st = .done ∨ st = .noFlow) (m : Nat) :
    x.injectorWord j st sh.toggle m = (x.markWord j st sh.toggle).endShot k e
      (if st = .done then classifyDone m sh.volume e.item.tolerance else .missed) m := by
  let y := x.markWord j st sh.toggle
  have hy : y.entryInjectors.Nodup := hnodup
  have hky : y.entries[k]? = some e := hk
  have hinj : y.entryInjectors[k]? = some j := by
    rw [Arm.entryInjectors, List.getElem?_map, hky, Option.map_some, hj]
  have hkeeps := Arm.entryInjectors_replyEntry y j st sh.toggle m k
  have hfold : x.injectorWord j st sh.toggle m = Arm.replyEntry j st sh.toggle m y k :=
    foldl_eq_of_only List.nodup_range (List.mem_range.mpr (List.getElem?_eq_some_iff.mp hk).1)
      (fun l hl => Arm.replyEntry_of_ne hy hinj hl)
      (fun l hl => Arm.replyEntry_of_ne (hkeeps ▸ hy) (hkeeps ▸ hinj) hl)
  rw [hfold, Arm.replyEntry_of_reply hky hj hshot hst]

/-! ## The word on the trunk -/

theorem wordInjectorStatus_eq_busy_iff {w : List Byte} : wordInjectorStatus w = .busy ↔ byteAt w 1 % 4 = 1 := by
  unfold wordInjectorStatus
  split_ifs <;> simp [*]

theorem wordInjectorStatus_eq_done_iff {w : List Byte} : wordInjectorStatus w = .done ↔ byteAt w 1 % 4 = 2 := by
  unfold wordInjectorStatus
  split_ifs <;> simp [*]

/-- The two statuses that reply to a shot are the codes 2 and 3 (spec 02 section 2.1). -/
theorem wordInjectorStatus_replies_iff {w : List Byte} :
    (wordInjectorStatus w = .done ∨ wordInjectorStatus w = .noFlow) ↔ 2 ≤ byteAt w 1 % 4 := by
  unfold wordInjectorStatus
  split_ifs <;> simp <;> omega

/-- BUSY keeps the reference toggle; any other status takes the echoed one (R118). -/
theorem Injector.afterWord_eq (i : Injector) (w : List Byte) :
    i.afterWord (wordInjectorStatus w) (wordEcho w) =
      { i with busy := decide (byteAt w 1 % 4 = 1), ref := if byteAt w 1 % 4 = 1 then i.ref else wordEcho w } := by
  simp only [Injector.afterWord, wordInjectorStatus_eq_busy_iff]
  split <;> simp [*]

theorem classifyWord_eq_valid {w : List Byte} {last : Option Bool} (hgood : wordGood w)
    (hfresh : last ≠ some (wordToggle w)) : classifyWord last w = .valid := by
  obtain ⟨hlen, hcrc⟩ := hgood
  simp [classifyWord, wordCrcGood, hlen, hcrc, hfresh]

theorem State.frameAssignment_of_windowOpen {s : State} {i : Fin 64} {a : Fin 8} {r : Role} (h : s.WindowOpen i a r) :
    s.frameAssignment i = some (a, r) := by
  obtain ⟨-, -, -, hlt, hslot, hrole⟩ := h
  simp [State.frameAssignment, assignment, hlt, hslot, hrole]

/-- The close of an assigned slot's window that is not the frame's last (R21). -/
theorem exec_answerWindowClose_of_windowOpen {s : State} {i : Fin 64} {a : Fin 8} {r : Role} (h : s.WindowOpen i a r)
    (hnext : i.val + 1 < s.trunk.slotCount) (w : List Byte) :
    exec (.answerWindowClose w) s =
      .next ((s.modTrunk (fun t => { t with nextWindow := t.nextWindow + 1 })).closeAssigned i a r w) := by
  have hslot := State.frameAssignment_of_windowOpen h
  obtain ⟨hpower, hanswering, hwindow, -, -, -⟩ := h
  have hlt : s.trunk.nextWindow < 64 := hwindow ▸ i.isLt
  have hi : (⟨s.trunk.nextWindow, hlt⟩ : Fin 64) = i := Fin.ext hwindow
  have hclose : s.closeWindow w = s.closeSlot i w := by
    rw [State.closeWindow, if_pos hanswering, dif_pos hlt, hi]
    exact if_neg (by omega)
  change Host.Outcome.next (s.whenPowered (fun t => t.closeWindow w)) = _
  rw [State.whenPowered, if_pos hpower, hclose, State.closeSlot, hslot]

@[simp] theorem State.releaseReply_meters (s : State) (a : Fin 8) (t : Transfer) :
    (s.releaseReply a t).meters = s.meters := by
  unfold State.releaseReply
  dsimp only
  split <;> rfl

@[simp] theorem State.serviceWord_meters (s : State) (a : Fin 8) (i : Fin 64) (b : Byte) (f : ServiceFlags) :
    (s.serviceWord a i b f).meters = s.meters := by
  unfold State.serviceWord
  dsimp only
  split
  · split
    · exact s.releaseReply_meters a _
    · rfl
  · rfl

/-- A valid injector word changes no arm but its own and no meter (R24). -/
theorem exec_answerWindowClose_injector {s : State} {i : Fin 64} {a : Fin 8} {j : Fin 4} {w : List Byte}
    (h : s.WindowOpen i a (.inj j)) (hnext : i.val + 1 < s.trunk.slotCount) (hgood : wordGood w)
    (hfresh : s.trunk.slots[i].toggle ≠ some (wordToggle w)) (htest : s.trunk.testFrame = false) :
    ∃ t, exec (.answerWindowClose w) s = .next t ∧ t.meters = s.meters ∧
      t.arms = s.arms.set a ((s.arm a).injectorWord j (wordInjectorStatus w) (wordEcho w) (wordMeasured w)) := by
  have hvalid : classifyWord s.trunk.slots[i.val].toggle w = .valid := classifyWord_eq_valid hgood hfresh
  refine ⟨_, exec_answerWindowClose_of_windowOpen h hnext w, ?_, ?_⟩ <;>
    simp [State.closeAssigned, State.settleAtClose, Role.meterPos, State.handOver, State.slotValid, State.setSlot,
      hvalid, htest, State.arm]

/-! ## The statement -/

/-- Settles O59: one entry's reply is `Arm.endShot_of_kept`; through the window, the word reaches the one entry of its
injector (`Arm.injectorWord_of_reply`), whose shot's end keeps its state or fails it by its policy. -/
theorem repliesClassified : Obligations.RepliesClassified := by
  unfold Obligations.RepliesClassified
  refine ⟨fun m v t => ⟨classifyDone_of_within, classifyDone_of_below, classifyDone_of_above,
    fun hv ht => classifyDone_zero hv (by omega)⟩, ?_, ?_⟩
  · intro x j k m e sh done hk hshot hj hbad cls up
    refine ⟨?_, fun _ _ target hnominal => ?_⟩
    · rw [Arm.replyEntry_of_reply hk hj hshot (by cases done <;> simp), Arm.endShot_of_kept (by omega) (.inr hbad)]
      cases done <;> rfl
    · rw [shotVolume_cast _ (by omega)]
      push_cast
      omega
  · intro s i a j w hopen hnext hgood hfresh htest hnodup x status echo measured mark marked
    obtain ⟨t, hexec, hmeters, harms⟩ := exec_answerWindowClose_injector hopen hnext hgood hfresh htest
    have harm : t.arm a = x.injectorWord j (wordInjectorStatus w) echo measured := by
      rw [State.arm, harms]
      exact get_set_self _ _ _
    have hmarked : x.markWord j (wordInjectorStatus w) echo = marked := by
      rw [Arm.markWord, show echo = wordEcho w from rfl, Injector.afterWord_eq]
      rfl
    refine ⟨t, hexec, fun b hb => ?_, hmeters, fun hno => ?_, ?_⟩
    · rw [State.arm, harms]
      exact get_set_ne _ _ _ _ hb.symm
    · rw [harm, ← hmarked]
      refine Arm.injectorWord_of_not_answers (fun e he ⟨hj, hst, sh, hshot, hecho⟩ => ?_) _
      rcases hno with hlow | hother
      · exact (wordInjectorStatus_replies_iff.mp hst).not_gt hlow
      · exact hother e he hj sh hshot hecho
    · intro k e sh hk hj hshot hecho hst hbad cls isBad up ended fails
      have hended : t.arm a = marked.endShot k e cls measured := by
        rw [harm, ← hmarked, ← hecho,
          Arm.injectorWord_of_reply hnodup hk hj hshot (wordInjectorStatus_replies_iff.mpr hst)]
        simp only [wordInjectorStatus_eq_done_iff]
        rfl
      have hk' : k < x.entries.length := (List.getElem?_eq_some_iff.mp hk).1
      refine ⟨fun h => ?_, fun hcls htwo hstate hstop => ?_, fun hcls htwo hstate hstop => ?_⟩
      · exact hended.trans (Arm.endShot_of_kept hbad (h.imp_left (mt ShotClass.isBad_iff.mp)) _)
      · exact hended.trans (Arm.endShot_of_failing_continue (ShotClass.isBad_iff.mpr hcls) htwo hstate hstop _)
      · rw [hended, Arm.endShot_of_failing_stop (ShotClass.isBad_iff.mpr hcls) htwo hstate hstop]
        exact ⟨Arm.takes_raiseCause _ _,
          Arm.raiseCause_getElem?_failed (by decide) (List.getElem?_set_self hk') rfl⟩

end Sys2Proof.Machine
end

section
/-! PROOFS. GET_SENSE: which requests of that code pass the check of R13, then the sense code read and cleared where the
arm field points, at an arm or at the device (R141). -/

namespace Sys2Proof.Machine

/-! ## The check of R13 -/

/-- GET_SENSE takes no payload and the field of an arm or of the device. -/
theorem Request.admitted_getSense_iff {arm : Byte} {p : List Byte} :
    ({ code := .getSense, arm := arm, payload := p } : Request).admitted = true ↔
      p = [] ∧ (arm.toNat < 8 ∨ arm = deviceByte) := by
  have hdevice : arm.toNat = 255 ↔ arm = deviceByte := BitVec.toNat_inj (y := deviceByte)
  simp only [Request.admitted, RequestCode.payloadOk, RequestCode.armOk, Bool.and_eq_true, Bool.or_eq_true,
    decide_eq_true_eq, beq_iff_eq, List.length_eq_zero_iff, hdevice]
  constructor
  · rintro ⟨⟨-, hp⟩, harm⟩
    exact ⟨hp, harm⟩
  · rintro ⟨rfl, harm⟩
    exact ⟨⟨by decide, rfl⟩, harm⟩

/-! ## The sense code that an arm field names -/

theorem State.heldSense_armByte (s : State) (a : Fin 8) : s.heldSense (armByte a).toNat = (s.arm a).sense := by
  rw [State.heldSense, dif_pos (armByte_lt a)]
  simp only [armByte_toNat]

theorem State.clearSense_armByte (s : State) (a : Fin 8) :
    s.clearSense (armByte a).toNat = s.modArm a (fun x => { x with sense := .none }) := by
  rw [State.clearSense, dif_pos (armByte_lt a)]
  simp only [armByte_toNat, Arm.note]

theorem State.heldSense_deviceByte (s : State) : s.heldSense deviceByte.toNat = s.rack.deviceSense :=
  dif_neg (by decide)

theorem State.clearSense_deviceByte (s : State) :
    s.clearSense deviceByte.toNat = { s with rack := { s.rack with deviceSense := .none } } :=
  dif_neg (by decide)

@[simp] theorem State.cleared_heldSense (s : State) (n : Nat) : s.cleared.heldSense n = s.heldSense n := rfl

/-- Giving up an open assembly and clearing a sense code touch different fields. -/
theorem State.cleared_clearSense (s : State) (n : Nat) : s.cleared.clearSense n = (s.clearSense n).cleared := by
  unfold State.clearSense
  split <;> rfl

/-! ## The statement -/

/-- An accepted GET_SENSE answers the code held before the clearing (R141). -/
theorem exec_getSense {s : State} {arm : Byte} (h : s.Ready) (harm : arm.toNat < 8 ∨ arm = deviceByte) :
    exec (.getSense arm []) s =
      .next ((s.clearSense arm.toNat).answered .getSense [BitVec.ofNat 8 (s.heldSense arm.toNat).code]) := by
  refine exec_accepted (code := .getSense) h (Request.admitted_getSense_iff.mpr ⟨rfl, harm⟩) (by simp) ?_
  rw [State.serve, State.cleared_clearSense, State.cleared_heldSense, field_one (Sense.code_lt _)]

/-- Settles O41: `exec_getSense` at an arm's field and at the device's, and the check of R13 for every other request. -/
theorem senseReadAndCleared : Obligations.SenseReadAndCleared := by
  unfold Obligations.SenseReadAndCleared
  intro s hs
  refine ⟨fun a => ?_, ?_, fun arm p hbad => ?_⟩
  · rw [exec_getSense hs (.inl (armByte_lt a)), State.clearSense_armByte, State.heldSense_armByte]
  · rw [exec_getSense hs (.inr rfl), State.clearSense_deviceByte, State.heldSense_deviceByte]
  · refine exec_not_admitted s .getSense arm p hs (Bool.eq_false_iff.mpr fun hadmitted => ?_)
    obtain ⟨hp, harm⟩ := Request.admitted_getSense_iff.mp hadmitted
    rcases hbad with hpayload | ⟨hlow, hother⟩
    · exact hpayload hp
    · exact harm.elim (by omega) hother

end Sys2Proof.Machine
end

section
/-! PROOFS. What the blocks of an arm leave of its batch: everything but the two stream accounts and the finalize keeps
the batch context, the accounts, the record toggle and the last record. -/

namespace Sys2Proof.Machine

/-- The batch of an arm is the same one, with the same totals: what a block leaves of it that neither adds an increment
nor finalizes. -/
structure Arm.SameBatch (x y : Arm) : Prop where
  ctx : y.ctx = x.ctx
  wild : y.wild = x.wild
  ctrl : y.ctrl = x.ctrl
  toggle : y.toggle = x.toggle
  last : y.last = x.last
  length : y.entries.length = x.entries.length
  isOpen : y.isOpen = x.isOpen
  pending : y.state = .startPending ↔ x.state = .startPending
  mode : y.ratio.mode = x.ratio.mode
  current : y.current.isSome = x.current.isSome

namespace Arm.SameBatch

theorem refl (x : Arm) : x.SameBatch x := ⟨rfl, rfl, rfl, rfl, rfl, rfl, rfl, .rfl, rfl, rfl⟩

theorem trans {x y z : Arm} (h : x.SameBatch y) (k : y.SameBatch z) : x.SameBatch z :=
  ⟨k.ctx.trans h.ctx, k.wild.trans h.wild, k.ctrl.trans h.ctrl, k.toggle.trans h.toggle, k.last.trans h.last,
   k.length.trans h.length, k.isOpen.trans h.isOpen, k.pending.trans h.pending, k.mode.trans h.mode,
   k.current.trans h.current⟩

theorem ite {x y z : Arm} {c : Prop} [Decidable c] (h : c → x.SameBatch y) (k : ¬c → x.SameBatch z) :
    x.SameBatch (if c then y else z) := by
  split
  · next e => exact h e
  · next e => exact k e

theorem foldl {β : Type} (f : Arm → β → Arm) (h : ∀ (x : Arm) k, x.SameBatch (f x k)) (l : List β) (x : Arm) :
    x.SameBatch (l.foldl f x) := by
  induction l generalizing x with
  | nil => exact .refl x
  | cons k l ih => exact (h x k).trans (ih _)

/-- A change of the arm's state alone, between two states that are both open or both not, and neither pending. -/
theorem ofState (x : Arm) (st : ArmState) (hopen : st.isOpen = x.isOpen) (h : st ≠ .startPending)
    (k : x.state ≠ .startPending) : x.SameBatch { x with state := st } :=
  ⟨rfl, rfl, rfl, rfl, rfl, rfl, hopen, by simp [h, k], rfl, rfl⟩

theorem note (x : Arm) (c : Sense) : x.SameBatch (x.note c) := ⟨rfl, rfl, rfl, rfl, rfl, rfl, rfl, .rfl, rfl, rfl⟩

/-! ### Additive entries and end causes -/

theorem setEntry (x : Arm) (k : Nat) (e : AdditiveEntry) : x.SameBatch (x.setEntry k e) :=
  ⟨rfl, rfl, rfl, rfl, rfl, by simp [Arm.setEntry], rfl, .rfl, rfl, rfl⟩

theorem issueShot (x : Arm) (k : Nat) (e : AdditiveEntry) (v : Nat) : x.SameBatch (x.issueShot k e v) :=
  ⟨rfl, rfl, rfl, rfl, rfl, by simp [Arm.issueShot], rfl, .rfl, rfl, rfl⟩

theorem closeEntryNormal (x : Arm) (k : Nat) : x.SameBatch (x.closeEntryNormal k) := by
  unfold Arm.closeEntryNormal
  split
  · exact .refl x
  · exact .ite (fun _ => .issueShot x k _ _) (fun _ => .setEntry x k _)

theorem closeEntries (x : Arm) (normal : Bool) : x.SameBatch (x.closeEntries normal) :=
  .ite (fun _ => .foldl _ closeEntryNormal _ x)
    (fun _ => ⟨rfl, rfl, rfl, rfl, rfl, by simp, rfl, .rfl, rfl, rfl⟩)

theorem enterClosing (x : Arm) (c : EndCause) (h : x.state = .running ∨ x.state = .holding ∨ x.state = .held) :
    x.SameBatch (x.enterClosing c) := by
  have hopen : x.isOpen = true := by rcases h with h | h | h <;> simp [Arm.isOpen, ArmState.isOpen, h]
  have hpend : x.state ≠ .startPending := by rcases h with h | h | h <;> simp [h]
  have hmoved : x.SameBatch { x with
      state := .closing, phase := .none, endReason := some c, wildSet := 0,
      ratio := { x.ratio with ctrlSet := 0, limited := false }, deliveredAtClose := x.delivered, zeroCount := 0,
      settleAge := 0, current := x.current.map CurrentRecord.closing } :=
    ⟨rfl, rfl, rfl, rfl, rfl, rfl, by rw [hopen]; rfl, by simp [hpend], rfl, by simp⟩
  unfold Arm.enterClosing
  exact .ite (fun _ => (hmoved.trans (.closeEntries _ _)).trans (.note _ _)) (fun _ => hmoved.trans (.closeEntries _ _))

theorem addSecondary (x : Arm) (c : EndCause) : x.SameBatch (x.addSecondary c) := by
  have hjoined : x.SameBatch { x with secondary := x.secondary ++ [c] } :=
    ⟨rfl, rfl, rfl, rfl, rfl, rfl, rfl, .rfl, rfl, rfl⟩
  exact .ite (fun _ => .refl x) (fun _ => .ite (fun _ => hjoined.trans (.note _ _)) (fun _ => hjoined))

theorem raiseCause (x : Arm) (c : EndCause) : x.SameBatch (x.raiseCause c) := by
  unfold Arm.raiseCause
  split
  · next h => exact .enterClosing x c (.inl h)
  · next h => exact .enterClosing x c (.inr (.inl h))
  · next h => exact .enterClosing x c (.inr (.inr h))
  · exact .addSecondary x c
  all_goals exact .refl x

theorem endShot (x : Arm) (k : Nat) (e : AdditiveEntry) (cls : ShotClass) (m : Nat) :
    x.SameBatch (x.endShot k e cls m) :=
  .ite
    (fun _ => .ite (fun _ => (setEntry x k _).trans (.raiseCause _ _))
      (fun _ => (setEntry x k _).trans ⟨rfl, rfl, rfl, rfl, rfl, rfl, rfl, .rfl, rfl, rfl⟩))
    (fun _ => .setEntry x k _)

theorem ageShot (x : Arm) (k : Nat) : x.SameBatch (x.ageShot k) := by
  unfold Arm.ageShot
  split
  · exact .refl x
  · split
    · exact .refl x
    · exact .ite (fun _ => .endShot x k _ _ _) (fun _ => .setEntry x k _)

theorem crossPoint (x : Arm) (k : Nat) : x.SameBatch (x.crossPoint k) := by
  unfold Arm.crossPoint
  split
  · exact .refl x
  · exact .ite (fun _ => .ite (fun _ => .issueShot x k _ _) (fun _ => .setEntry x k _)) (fun _ => .setEntry x k _)

theorem passEntry (x : Arm) (k : Nat) : x.SameBatch (x.passEntry k) :=
  .ite (fun _ => (ageShot x k).trans (.crossPoint _ k)) (fun _ => .ageShot x k)

theorem additivePass (x : Arm) : x.SameBatch x.additivePass := .foldl _ passEntry _ x

theorem replyEntry (j : Fin 4) (st : InjectorStatus) (echo : Bool) (m : Nat) (x : Arm) (k : Nat) :
    x.SameBatch (Arm.replyEntry j st echo m x k) := by
  unfold Arm.replyEntry
  split
  · exact .refl x
  · split
    · exact .refl x
    · split
      · cases st with
        | done | noFlow => exact .endShot x k _ _ _
        | idle | busy => exact .refl x
      · exact .refl x

theorem injectorWord (x : Arm) (j : Fin 4) (st : InjectorStatus) (echo : Bool) (m : Nat) :
    x.SameBatch (x.injectorWord j st echo m) :=
  trans (y := x.markWord j st echo) ⟨rfl, rfl, rfl, rfl, rfl, rfl, rfl, .rfl, rfl, rfl⟩
    (.foldl _ (replyEntry j st echo m) _ _)

/-! ### Arm Controller and Ratio Controller -/

theorem runningStep (x : Arm) (h : x.state = .running) : x.SameBatch x.runningStep := by
  have heval : ∀ c, x.SameBatch (x.evaluatePhase c) := fun c =>
    .ite (fun _ => trans (y := { x with phase := x.nextPhase c }) ⟨rfl, rfl, rfl, rfl, rfl, rfl, rfl, .rfl, rfl, rfl⟩
      (.enterClosing _ _ (.inl h))) (fun _ => ⟨rfl, rfl, rfl, rfl, rfl, rfl, rfl, .rfl, rfl, rfl⟩)
  unfold Arm.runningStep
  split
  · exact .refl x
  · exact .ite (fun _ => (heval _).trans ⟨rfl, rfl, rfl, rfl, rfl, rfl, rfl, .rfl, rfl, rfl⟩) (fun _ => heval _)

theorem bandCheck (x : Arm) (c : Context) : x.SameBatch (x.bandCheck c) := by
  have hcount : x.SameBatch { x with ratio := { x.ratio with outCount := x.bandCount c } } :=
    ⟨rfl, rfl, rfl, rfl, rfl, rfl, rfl, .rfl, rfl, rfl⟩
  exact .ite (fun _ => hcount.trans (.raiseCause _ _)) (fun _ => hcount)

theorem ratioAct (x : Arm) (received : Bool) (q : Nat) : x.SameBatch (x.ratioAct received q) := by
  have hrest : x.SameBatch (if x.state = .running then { x with ratio := { x.ratio with ctrlSet := 0 } } else x) :=
    .ite (fun _ => ⟨rfl, rfl, rfl, rfl, rfl, rfl, rfl, .rfl, rfl, rfl⟩) (fun _ => .refl x)
  unfold Arm.ratioAct
  split
  · exact .ite (fun _ => trans (y := x.ratioSetpoint _ q) ⟨rfl, rfl, rfl, rfl, rfl, rfl, rfl, .rfl, rfl, rfl⟩
      (.bandCheck _ _)) (fun _ => .refl x)
  · exact .ite (fun _ => hrest.trans (.raiseCause _ _)) (fun _ => hrest)
  · exact .refl x

theorem enterHolding (x : Arm) (h : x.state = .running) : x.SameBatch x.enterHolding :=
  ⟨rfl, rfl, rfl, rfl, rfl, rfl, by simp [Arm.isOpen, Arm.enterHolding, ArmState.isOpen, h],
   by simp [Arm.enterHolding, h], rfl, rfl⟩

theorem resumed (x : Arm) (h : x.state = .held) : x.SameBatch x.resumed :=
  ⟨rfl, rfl, rfl, rfl, rfl, rfl, by simp [Arm.isOpen, Arm.resumed, ArmState.isOpen, h],
   by simp [Arm.resumed, h], rfl, rfl⟩

theorem recordLeak (x : Arm) : x.SameBatch x.recordLeak :=
  .ite (fun _ => ⟨rfl, rfl, rfl, rfl, rfl, rfl, rfl, .rfl, rfl, rfl⟩) (fun _ => .addSecondary x _)

theorem slotLost (x : Arm) (r : Role) : x.SameBatch (x.slotLost r) :=
  .ite (fun _ => .raiseCause x _) (fun _ => .refl x)

end Arm.SameBatch

end Sys2Proof.Machine
end

section
/-! PROOFS. Says once what a command can do to the whole state: a reset, or moves of the blocks with at most one request
decided among them. An invariant is then checked against each move. -/

namespace Sys2Proof.Machine

/-! ## Moves -/

/-- What a block does to its arm apart from requests and start windows: it keeps the batch, adds an increment set to it,
or finalizes it. -/
inductive BatchMove : Arm → Arm → Prop
  | keep {x y : Arm} (h : x.SameBatch y) : BatchMove x y
  | account (x : Arm) (p : StreamPos) (i : Increment) (h : x.isOpen = true) :
      BatchMove x (x.setAccount p ((x.account p).add i))
  | finalize (x : Arm) (a : Fin 8) (c : Context) (r : CurrentRecord) (n : Nat) (h : x.state = .closing)
      (hc : x.ctx = some c) : BatchMove x (x.finalized a c r n)

/-- A meter keeps its residues below their divisors and its totalizers in range (R56, R59). -/
def Meter.Runs (k10 : Nat) (m u : Meter) : Prop :=
  (m.residuesBelow k10 → u.residuesBelow k10) ∧ (m.totals.inRange → u.totals.inRange)

/-- The trunk's counters stay below their ceilings, and an echo test runs no more frames than were asked for
(R28, R36, R37). -/
def Trunk.Counts (t u : Trunk) : Prop :=
  (t.crcErrors ≤ 255 → u.crcErrors ≤ 255) ∧ (t.staleErrors ≤ 255 → u.staleErrors ≤ 255) ∧
  (t.test.errors ≤ 65535 → u.test.errors ≤ 65535) ∧
  u.test.framesRun + u.test.remaining ≤ t.test.framesRun + t.test.remaining

/-- The rack link keeps its transaction, opens no assembly while one lasts, and keeps its error counter below the ceiling
(R3, R11, R14). -/
def RackLink.Runs (r u : RackLink) : Prop :=
  u.transaction = r.transaction ∧ (u.assembly = none ∨ u.assembly = r.assembly ∨ r.transaction = .none) ∧
  (r.errors ≤ 255 → u.errors ≤ 255)

/-- Each transfer is in flight and wanted as before. -/
def Transfer.Stays (t u : Transfer) : Prop := u.wanted = t.wanted ∧ u.inFlight = t.inFlight

/-- The rack link goes DOWN once the levels have dropped (R10, R159, R166). -/
def State.cutLink (s : State) : State :=
  { s with
    rack := { s.rack with
      up := false, silence := 0, assembly := none, transaction := .none, discard := false, errors := 0 },
    transfers := Vector.ofFn (fun a => s.transfers[a].unwanted),
    store := { s.store with prepared := false } }

theorem State.linkDown_eq (s : State) :
    s.linkDown = (s.setLevels (Vector.ofFn (fun a => s.rack.levels[a].linkLost))).cutLink := rfl

/-- One change of the state by one block, apart from resets and decided requests. -/
inductive Move : State → State → Prop
  | arm (s : State) (a : Fin 8) {y : Arm} (h : BatchMove (s.arm a) y) : Move s (s.setArm a y)
  | save (s : State) (a : Fin 8) : Move s (s.requestSave a)
  | back (s : State) (a : Fin 8) (c : Sense) (h : (s.arm a).state = .startPending) : Move s (s.returnPending a c)
  | expire (s : State) (l : Fin 4) : Move s (s.expireWindow l)
  | wait (s : State) (l : Fin 4) (n : Nat) : Move s (s.setWindow l { s.windows[l] with remaining := n })
  | meter (s : State) (a : Fin 8) (p : StreamPos) {m : Meter} (h : (s.meter a p).Runs ((s.armEntry a).k10 p) m) :
      Move s (s.setMeter a p m)
  | fresh (s : State) : Move s s.freshSamples
  | trunk (s : State) {t : Trunk} (h : s.trunk.Counts t) : Move s { s with trunk := t }
  | abandon (s : State) (a : Fin 8) (code : Sense) : Move s (s.abandonTransfer a code)
  | release (s : State) (a : Fin 8) {t : Transfer} (h : t.wanted = s.transfers[a].wanted) : Move s (s.releaseReply a t)
  | transfers (s : State) {v : Vector Transfer 8} (h : ∀ a : Fin 8, s.transfers[a].Stays v[a]) :
      Move s { s with transfers := v }
  | outside (s : State) (us : Nat) (lines : Lines) (base : Timebase) (n : Nat) :
      Move s { s with nowUs := us, lines := lines, timebase := base, choices := n }
  | rack (s : State) {r : RackLink} (h : s.rack.Runs r) : Move s { s with rack := r }
  | send (s : State) : Move s s.sendUpstream
  | cut (s : State) : Move s s.cutLink
  | saved (s : State) (b : Bool) : Move s (s.completeSave b)
  | committed (s : State) (b : Bool) : Move s (s.completeCommit b)

/-- The state is reached by moves. -/
def Moves : State → State → Prop := Relation.ReflTransGen Move

theorem Move.moves {s t : State} (h : Move s t) : Moves s t := .single h

theorem Moves.refl (s : State) : Moves s s := Relation.ReflTransGen.refl

theorem Moves.trans {s t u : State} (h : Moves s t) (k : Moves t u) : Moves s u := Relation.ReflTransGen.trans h k

/-- A property that every move keeps is kept by moves. -/
theorem Moves.keeps {P : State → Prop} (hP : ∀ s t, Move s t → P s → P t) {s t : State} (h : Moves s t) (hs : P s) :
    P t := by
  induction h with
  | refl => exact hs
  | tail _ m ih => exact hP _ _ m ih

namespace Moves

theorem ite {s t u : State} {c : Prop} [Decidable c] (h : c → Moves s t) (k : ¬c → Moves s u) :
    Moves s (if c then t else u) := by
  split
  · next e => exact h e
  · next e => exact k e

theorem foldl {β : Type} (f : State → β → State) (h : ∀ s x, Moves s (f s x)) (l : List β) (s : State) :
    Moves s (l.foldl f s) := by
  induction l generalizing s with
  | nil => exact .refl s
  | cons x l ih => exact (h s x).trans (ih _)

theorem keepArm (s : State) (a : Fin 8) (f : Arm → Arm) (h : (s.arm a).SameBatch (f (s.arm a))) :
    Moves s (s.modArm a f) := (Move.arm s a (.keep h)).moves

/-- A change of an arm outside the fields of its batch. -/
theorem cause (s : State) (a : Fin 8) (c : EndCause) : Moves s (s.modArm a (fun x => x.raiseCause c)) :=
  .keepArm s a _ (.raiseCause _ c)

theorem note (s : State) (a : Fin 8) (c : Sense) : Moves s (s.modArm a (fun x => x.note c)) :=
  .keepArm s a _ (.note _ c)

theorem save (s : State) (a : Fin 8) : Moves s (s.requestSave a) := (Move.save s a).moves

theorem modTrunk (s : State) (f : Trunk → Trunk) (h : s.trunk.Counts (f s.trunk)) : Moves s (s.modTrunk f) :=
  (Move.trunk s h).moves

theorem modRack (s : State) (f : RackLink → RackLink) (h : s.rack.Runs (f s.rack)) : Moves s (s.modRack f) :=
  (Move.rack s h).moves

/-! ### The batch -/

theorem tickWindow (s : State) (l : Fin 4) : Moves s (s.tickWindow l) :=
  .ite (fun _ => (Move.expire s l).moves) (fun _ => .ite (fun _ => (Move.wait s l _).moves) (fun _ => .refl s))

theorem tryResume (s : State) (a : Fin 8) : Moves s (s.tryResume a) :=
  .ite (fun h => .keepArm s a _ (.resumed _ h.1)) (fun _ => .refl s)

theorem finalize (s : State) (a : Fin 8) (h : (s.arm a).state = .closing) : Moves s (s.finalize a) := by
  unfold State.finalize
  split
  · next c r hc _ => exact (Move.arm s a (.finalize _ a c r s.trunk.frameCounter h hc)).moves.trans (.save _ a)
  · exact .refl s

theorem settle (s : State) (a : Fin 8) : Moves s (s.settle a) := by
  unfold State.settle
  split
  · next h =>
    exact (keepArm s a _ (.ofState _ .held (by simp [Arm.isOpen, ArmState.isOpen, h]) nofun (by simp [h]))).trans
      (.tryResume _ a)
  · next h => exact .finalize s a h
  · exact .refl s

theorem holdExpire (s : State) (a : Fin 8) : Moves s (s.holdExpire a) :=
  .keepArm s a _ (.trans (y := (s.arm a).holdTick) ⟨rfl, rfl, rfl, rfl, rfl, rfl, rfl, .rfl, rfl, rfl⟩ (.raiseCause _ _))

theorem holdTick (s : State) (a : Fin 8) : Moves s (s.modArm a Arm.holdTick) :=
  .keepArm s a _ ⟨rfl, rfl, rfl, rfl, rfl, rfl, rfl, .rfl, rfl, rfl⟩

theorem storeZero (s : State) (a : Fin 8) : Moves s (s.storeZero a) :=
  .keepArm s a _ ⟨rfl, rfl, rfl, rfl, rfl, rfl, rfl, .rfl, rfl, rfl⟩

theorem settleExpire (s : State) (a : Fin 8) (h : (s.arm a).state = .closing) : Moves s (s.settleExpire a) :=
  (keepArm s a _ (.trans (y := { s.arm a with settleAge := (s.arm a).settleAge + 1 })
    ⟨rfl, rfl, rfl, rfl, rfl, rfl, rfl, .rfl, rfl, rfl⟩ (.recordLeak _))).trans (.finalize _ a (by simp [h]))

theorem holdingStep (s : State) (a : Fin 8) : Moves s (s.holdingStep a) :=
  .ite (fun _ => .holdExpire s a) (fun _ => .ite
    (fun _ => ((holdTick s a).trans (.storeZero _ a)).trans (.settle _ a))
    (fun _ => (holdTick s a).trans (.storeZero _ a)))

theorem heldStep (s : State) (a : Fin 8) : Moves s (s.heldStep a) :=
  .ite (fun _ => .holdExpire s a) (fun _ => .holdTick s a)

theorem closingStep (s : State) (a : Fin 8) (h : (s.arm a).state = .closing) : Moves s (s.closingStep a) :=
  .ite (fun _ => (storeZero s a).trans (.settle _ a)) (fun _ => .ite
    (fun _ => (storeZero s a).trans (.settleExpire _ a (by simpa using h)))
    (fun _ => (storeZero s a).trans (.keepArm _ a _ ⟨rfl, rfl, rfl, rfl, rfl, rfl, rfl, .rfl, rfl, rfl⟩)))

theorem armAct (s : State) (a : Fin 8) : Moves s (s.armAct a) := by
  unfold State.armAct
  split
  · next h => exact .keepArm s a _ (.runningStep _ h)
  · exact .holdingStep s a
  · exact .heldStep s a
  · next h => exact .closingStep s a h
  all_goals exact .refl s

theorem runBlock (a : Fin 8) (received : ArmState) (s : State) (b : Block) : Moves s (State.runBlock a received s b) := by
  cases b with
  | armController => exact .armAct s a
  | ratioController => exact .keepArm s a (fun x => x.ratioAct _ _) (.ratioAct _ _ _)
  | additiveScheduler => exact .keepArm s a _ (.additivePass _)

theorem armFrameClosed (s : State) (a : Fin 8) : Moves s (s.armFrameClosed a) :=
  .ite (fun _ => .refl s) (fun _ => .ite (fun _ => .foldl _ (runBlock a _) _ s)
    (fun _ => (Move.outside s s.nowUs s.lines s.timebase (s.choices + 1)).moves.trans (.foldl _ (runBlock a _) _ _)))

theorem runPermitDropped (s : State) (a : Fin 8) (cause : DropCause) : Moves s (s.runPermitDropped a cause) :=
  .ite (fun h => (Move.back s a _ h).moves) (fun _ => .cause s a _)

theorem holdChanged (s : State) (a : Fin 8) (b : Bool) : Moves s (s.holdChanged a b) :=
  .ite (fun _ => .ite (fun h => .keepArm s a _ (.enterHolding _ h)) (fun _ => .refl s)) (fun _ => .tryResume s a)

theorem levelsChanged (s : State) (a : Fin 8) (old : Levels) : Moves s (s.levelsChanged a old) := by
  unfold State.levelsChanged
  dsimp only
  generalize hu : (if old.runPermit && !s.rack.levels[a].runPermit
    then s.runPermitDropped a s.rack.levels[a].dropCause else s) = u
  have h1 : Moves s u := hu ▸ .ite (fun _ => .runPermitDropped s a _) (fun _ => .refl s)
  exact .ite (fun _ => h1.trans (.holdChanged u a _)) (fun _ => h1)

theorem permissiveLost (s : State) (a : Fin 8) (code : Sense) (c : EndCause) : Moves s (s.permissiveLost a code c) :=
  .ite (fun h => (Move.back s a _ h).moves) (fun _ => .cause s a _)

theorem permitLine (s : State) (a : Fin 8) (b : Bool) : Moves s (s.permitLine a b) :=
  (Move.outside s s.nowUs { s.lines with permit := s.lines.permit.set a b } s.timebase s.choices).moves.trans
    (.ite (fun _ => .permissiveLost _ a _ _) (fun _ => .refl _))

theorem estopLine (s : State) (b : Bool) : Moves s (s.estopLine b) :=
  (Move.outside s s.nowUs { s.lines with estop := b } s.timebase s.choices).moves.trans
    (.ite (fun _ => .foldl _ (fun t a => permissiveLost t a _ _) _ _) (fun _ => .refl _))

theorem certLine (s : State) (b : Bool) : Moves s (s.certLine b) :=
  (Move.outside s s.nowUs { s.lines with certUnlocked := b } s.timebase s.choices).moves

theorem setLevels (s : State) (l : Vector Levels 8) : Moves s (s.setLevels l) :=
  (modRack s (fun r => { r with levels := l }) ⟨rfl, .inr (.inl rfl), id⟩).trans
    (.foldl (fun t a => t.levelsChanged a s.rack.levels[a]) (fun t a => .levelsChanged t a _) allArms _)

theorem accrueUnauthorized (s : State) (a : Fin 8) (iv : Nat) : Moves s (s.accrueUnauthorized a iv) := by
  have haccrued : Moves s (s.modArm a (fun x => x.accrue iv)) :=
    .keepArm s a _ ⟨rfl, rfl, rfl, rfl, rfl, rfl, rfl, .rfl, rfl, rfl⟩
  unfold State.accrueUnauthorized
  refine .ite (fun _ => ?_) (fun _ => haccrued)
  split
  · next e =>
    refine (haccrued.trans (.keepArm _ a _ ?_)).trans (.save _ a)
    exact ⟨rfl, rfl, rfl, rfl, rfl, rfl, by simp [Arm.isOpen, ArmState.isOpen, Arm.accrue, e],
      by simp [Arm.accrue, e], rfl, rfl⟩
  · exact haccrued.trans (.note _ a _)
  · exact haccrued

/-! ### Metering -/

end Moves

theorem Meter.Runs.of_eq {k10 : Nat} {m u : Meter} (hpulse : u.pulseRes = m.pulseRes) (hgross : u.grossRes = m.grossRes)
    (hnet : u.netRes = m.netRes) (htotals : u.totals = m.totals) : m.Runs k10 u := by
  simp [Meter.Runs, Meter.residuesBelow, hpulse, hgross, hnet, htotals]

theorem MeterTotals.add_inRange (t : MeterTotals) (gv nv : Nat) : (t.add gv nv).inRange :=
  ⟨Nat.mod_lt _ (by decide), Nat.mod_lt _ (by decide), Nat.mod_lt _ (by decide), Nat.mod_lt _ (by decide)⟩

/-- A counted delta leaves each residue below its divisor: K10 is positive where a residue lies below it (R59). -/
theorem Meter.convert_runs (m : Meter) (k : MeterConstants) (delta : Nat) : m.Runs k.k10 (m.convert k delta).1 :=
  ⟨fun ⟨h, _, _⟩ => ⟨Nat.mod_lt _ (by omega), Nat.mod_lt _ (by decide), Nat.mod_lt _ (by decide)⟩,
   fun _ => MeterTotals.add_inRange _ _ _⟩

theorem Meter.settled_runs (k10 : Nat) (m : Meter) (n ms : Nat) : m.Runs k10 (m.settled n ms) := by
  unfold Meter.settled
  split <;> exact .of_eq rfl rfl rfl rfl

theorem State.processMeter_runs (s : State) (a : Fin 8) (p : StreamPos) (w : MeterWord) :
    (s.meter a p).Runs ((s.armEntry a).k10 p) (s.processMeter a p w).1 := by
  have htaken : (s.meter a p).Runs ((s.armEntry a).k10 p)
      (((s.meter a p).takeTemp w.temp w.status).accepted w.total s.trunk.frameCounter) := by
    unfold Meter.takeTemp
    split <;> exact .of_eq rfl rfl rfl rfl
  unfold State.processMeter
  dsimp only
  split
  · exact htaken
  · obtain ⟨hres, htot⟩ := Meter.convert_runs
      (((s.meter a p).takeTemp w.temp w.status).accepted w.total s.trunk.frameCounter) (s.constants a p)
      (pulseDelta w.total ((s.meter a p).lastTotal.getD 0))
    exact ⟨fun h => hres (htaken.1 h), fun h => htot (htaken.2 h)⟩

namespace Moves

theorem routeIncrement (s : State) (a : Fin 8) (p : StreamPos) (i : Increment) : Moves s (s.routeIncrement a p i) :=
  .ite (fun h => (Move.arm s a (.account _ p i h)).moves) (fun _ => .accrueUnauthorized s a _)

theorem processSample (s : State) (a : Fin 8) (p : StreamPos) (w : MeterWord) : Moves s (s.processSample a p w) := by
  have hrouted : Moves s ((s.setMeter a p (s.processMeter a p w).1).routeIncrement a p (s.processMeter a p w).2) :=
    (Move.meter s a p (s.processMeter_runs a p w)).moves.trans (.routeIncrement _ a p _)
  unfold State.processSample
  dsimp only
  refine .ite (fun _ => ?_) (fun _ => ?_)
  · exact Moves.trans (.ite (fun _ => hrouted.trans (.cause _ a _)) (fun _ => hrouted)) (.cause _ a _)
  · exact .ite (fun _ => hrouted.trans (.cause _ a _)) (fun _ => hrouted)

theorem meterSample (s : State) (a : Fin 8) (p : StreamPos) (w : MeterWord) : Moves s (s.meterSample a p w) :=
  .ite (fun _ => .processSample s a p w) (fun _ => .refl s)

theorem settleMeter (s : State) (a : Fin 8) (p : StreamPos) : Moves s (s.settleMeter a p) := by
  have hsettled : Moves s (s.modMeter a p (fun m => m.settled s.trunk.frameCounter s.timebase.periodMs)) :=
    (Move.meter s a p (Meter.settled_runs _ _ _ _)).moves
  unfold State.settleMeter
  dsimp only
  generalize hv : (if s.config.tempHoldLimit ≤
    ((s.modMeter a p (fun m => m.settled s.trunk.frameCounter s.timebase.periodMs)).meter a p).age then
      (s.modMeter a p (fun m => m.settled s.trunk.frameCounter s.timebase.periodMs)).modArm a
        (fun x => x.raiseCause .tempLost)
    else s.modMeter a p (fun m => m.settled s.trunk.frameCounter s.timebase.periodMs)) = v
  have hcold : Moves s v := hv ▸ .ite (fun _ => hsettled.trans (.cause _ a _)) (fun _ => hsettled)
  exact .ite (fun _ => hcold.trans (.armFrameClosed _ a)) (fun _ => hcold)

theorem settleUnassigned (s : State) (a : Fin 8) (p : StreamPos) : Moves s (s.settleUnassigned a p) :=
  .ite (fun _ => .settleMeter s a p) (fun _ => .refl s)

theorem settleAtClose (s : State) (i : Fin 64) (a : Fin 8) (r : Role) : Moves s (s.settleAtClose i a r) := by
  unfold State.settleAtClose
  split
  · exact .refl s
  · exact .ite (fun _ => .refl s) (fun _ => .settleMeter s a _)

theorem handOver (s : State) (a : Fin 8) (r : Role) (w : List Byte) : Moves s (s.handOver a r w) := by
  unfold State.handOver
  split
  · exact .refl s
  · exact .meterSample s a _ _
  · exact .meterSample s a _ _
  · exact .ite (fun _ => .cause s a _) (fun _ => .refl s)
  · exact .ite (fun _ => .cause s a _) (fun _ => .refl s)
  · exact .keepArm s a _ (.injectorWord _ _ _ _ _)

/-! ### The Service Relay -/

theorem setTransfer (s : State) (a : Fin 8) {t : Transfer} (h : s.transfers[a].Stays t) : Moves s (s.setTransfer a t) := by
  refine (Move.transfers s (v := s.transfers.set a t) fun b => ?_).moves
  by_cases hb : a = b
  · subst hb
    simpa using h
  · rw [get_set_ne _ _ _ _ hb]
    exact ⟨rfl, rfl⟩

theorem abandonTransfer (s : State) (a : Fin 8) (code : Sense) : Moves s (s.abandonTransfer a code) :=
  (Move.abandon s a code).moves

theorem serviceWord (s : State) (a : Fin 8) (i : Fin 64) (b : Byte) (f : ServiceFlags) :
    Moves s (s.serviceWord a i b f) := by
  have htaken : s.transfers[a].Stays (s.transfers[a].takeByte b) := by
    unfold Transfer.takeByte
    split <;> exact ⟨rfl, rfl⟩
  exact .ite (fun _ => .ite (fun _ => (Move.release s a htaken.1).moves) (fun _ => .setTransfer s a htaken))
    (fun _ => .refl s)

theorem serviceSlotLost (s : State) (a : Fin 8) (i : Fin 64) : Moves s (s.serviceSlotLost a i) :=
  .ite (fun _ => .abandonTransfer s a _) (fun _ => .refl s)

theorem serviceTick (s : State) (a : Fin 8) : Moves s (s.serviceTick a) :=
  .ite (fun _ => .abandonTransfer s a _)
    (fun _ => .ite (fun _ => .setTransfer s a ⟨rfl, rfl⟩) (fun _ => .refl s))

theorem advanceTransfers (s : State) : Moves s s.advanceTransfers := by
  refine (Move.transfers s fun a => ?_).moves
  simp only [Fin.getElem_fin, Vector.getElem_ofFn]
  unfold Transfer.advance
  split
  · next h =>
    split
    · split
      · exact ⟨rfl, by rw [Transfer.inFlight, Transfer.inFlight, h]; rfl⟩
      · exact ⟨rfl, rfl⟩
    · exact ⟨rfl, rfl⟩
  all_goals exact ⟨rfl, rfl⟩

end Moves

/-! ### The trunk -/

theorem satSucc_le (ceiling n : Nat) : satSucc ceiling n ≤ ceiling := by
  unfold satSucc
  split <;> omega

/-- A change of the trunk that leaves its error counters and its test. -/
theorem Trunk.Counts.of_eq {t u : Trunk} (hcrc : u.crcErrors = t.crcErrors) (hstale : u.staleErrors = t.staleErrors)
    (htest : u.test = t.test) : t.Counts u := by
  simp [Trunk.Counts, hcrc, hstale, htest]

theorem Trunk.countOutcome_counts (t : Trunk) (o : WindowOutcome) : t.Counts (t.countOutcome o) := by
  cases o
  case crc => exact ⟨fun _ => satSucc_le _ _, id, id, le_rfl⟩
  case stale => exact ⟨id, fun _ => satSucc_le _ _, id, le_rfl⟩
  all_goals exact ⟨id, id, id, le_rfl⟩

theorem Trunk.testResult_counts (t : Trunk) : t.Counts t.testResult := by
  unfold Trunk.testResult
  split
  · exact ⟨id, id, fun _ => satSucc_le _ _, le_rfl⟩
  · exact ⟨id, id, id, le_rfl⟩

theorem Trunk.adopt_counts (t : Trunk) (n : Nat) (table : Vector SlotEntry 64) : t.Counts (t.adopt n table) := by
  refine ⟨id, id, ?_, ?_⟩ <;> dsimp only [Trunk.adopt] <;> unfold EchoTest.emitted <;> split
  · exact id
  · exact id
  · next h =>
    have hleft : 0 < t.test.remaining := by
      rw [EchoTest.covers, Bool.and_eq_true, decide_eq_true_eq] at h
      exact h.2
    dsimp only
    omega
  · exact le_rfl

namespace Moves

theorem setSlot (s : State) (i : Fin 64) (x : SlotRx) : Moves s (s.setSlot i x) := .modTrunk s _ (.of_eq rfl rfl rfl)

theorem slotLostEvent (s : State) (i : Fin 64) (a : Fin 8) (r : Role) : Moves s (s.slotLostEvent i a r) := by
  have hserved : Moves s ((s.modArm a (fun x => x.slotLost r)).serviceSlotLost a i) :=
    (keepArm s a _ (.slotLost _ r)).trans (.serviceSlotLost _ a i)
  unfold State.slotLostEvent
  dsimp only
  split
  · exact hserved
  · exact hserved.trans (Move.meter _ a _ (m := Meter.marked _) (.of_eq rfl rfl rfl rfl)).moves

theorem loseSlot (s : State) (i : Fin 64) (a : Fin 8) (r : Role) : Moves s (s.loseSlot i a r) :=
  (setSlot s i _).trans (.slotLostEvent _ i a r)

theorem slotInvalid (s : State) (i : Fin 64) (a : Fin 8) (r : Role) : Moves s (s.slotInvalid i a r) :=
  .ite (fun _ => .loseSlot s i a r) (fun _ => .ite (fun _ => .setSlot s i _) (fun _ => .setSlot s i _))

theorem slotValid (s : State) (i : Fin 64) (toggle : Bool) : Moves s (s.slotValid i toggle) :=
  (setSlot s i _).trans (.modTrunk _ _ (.of_eq rfl rfl rfl))

theorem trunkDownEvent (s : State) : Moves s s.trunkDownEvent :=
  (modTrunk s _ ⟨fun _ => Nat.zero_le _, fun _ => Nat.zero_le _, id, le_rfl⟩).trans
    (.foldl _ (fun t a => cause t a _) allArms _)

theorem closeAssigned (s : State) (i : Fin 64) (a : Fin 8) (r : Role) (w : List Byte) :
    Moves s (s.closeAssigned i a r w) := by
  have hcounted : ∀ o, Moves s (s.modTrunk (fun t => (t.countOutcome o).noteTest i o w)) := fun o =>
    modTrunk s _ (s.trunk.countOutcome_counts o)
  unfold State.closeAssigned
  dsimp only
  refine Moves.trans (.ite (fun _ => ?_) (fun _ => (hcounted _).trans (.slotInvalid _ i a r))) (.settleAtClose _ i a r)
  refine Moves.trans (.ite (fun _ => ?_) (fun _ => ?_)) (.serviceWord _ a i _ _)
  · exact (hcounted _).trans (.slotValid _ i _)
  · exact ((hcounted _).trans (.slotValid _ i _)).trans (.handOver _ a r w)

theorem silenceStep (s : State) : Moves s s.silenceStep :=
  .ite (fun _ => .refl s) (fun _ => .ite
    (fun _ => (modTrunk s _ (.of_eq rfl rfl rfl)).trans (.trunkDownEvent _)) (fun _ => .modTrunk s _ (.of_eq rfl rfl rfl)))

theorem endTest (s : State) : Moves s s.endTest :=
  have hcomplete : Moves s (s.modTrunk (fun t => { t with test := { t.test with state := .complete } })) :=
    .modTrunk s _ ⟨id, id, id, le_rfl⟩
  .ite (fun _ => hcomplete.trans (.modTrunk _ _ (.of_eq rfl rfl rfl))) (fun _ => hcomplete.trans (.trunkDownEvent _))

theorem testStep (s : State) : Moves s s.testStep :=
  have hresult : Moves s (s.modTrunk Trunk.testResult) := .modTrunk s _ s.trunk.testResult_counts
  .ite (fun _ => hresult.trans (.endTest _)) (fun _ => hresult)

theorem intervalEnd (s : State) : Moves s s.intervalEnd := by
  have htest : Moves s (s.modTrunk (fun t => { t with answering := false })).silenceStep.testStep :=
    ((modTrunk s _ (.of_eq rfl rfl rfl)).trans (.silenceStep _)).trans (.testStep _)
  have hticks := (htest.trans (.foldl State.tickWindow tickWindow allLanes _)).trans
    (.foldl State.serviceTick serviceTick allArms _)
  exact hticks.trans (.foldl (fun t a => (t.settleUnassigned a .wild).settleUnassigned a .ctrl)
    (fun t a => (settleUnassigned t a _).trans (.settleUnassigned _ a _)) allArms _)

theorem closeSlot (s : State) (i : Fin 64) (w : List Byte) : Moves s (s.closeSlot i w) := by
  unfold State.closeSlot
  dsimp only
  split
  · exact .modTrunk s _ (.of_eq rfl rfl rfl)
  · exact (modTrunk s _ (.of_eq rfl rfl rfl)).trans (.closeAssigned _ i _ _ w)

theorem closeWindow (s : State) (w : List Byte) : Moves s (s.closeWindow w) := by
  unfold State.closeWindow
  refine .ite (fun _ => ?_) (fun _ => .refl s)
  split
  · exact .ite (fun _ => (closeSlot s _ w).trans (.intervalEnd _)) (fun _ => .closeSlot s _ w)
  · exact (modTrunk s _ (.of_eq rfl rfl rfl)).trans (.intervalEnd _)

theorem cutWindows (n : Nat) (s : State) : Moves s (s.cutWindows n) := by
  induction n generalizing s with
  | zero => exact .refl s
  | succ n ih => exact .ite (fun _ => (closeWindow s []).trans (ih _)) (fun _ => .refl s)

theorem changeAssignment (old : Nat × Vector SlotEntry 64) (s : State) (i : Fin 64) :
    Moves s (s.changeAssignment old i) := by
  unfold State.changeAssignment
  refine .ite (fun _ => .refl s) (fun _ => ?_)
  dsimp only
  split
  · exact .setSlot s i _
  · exact .ite (fun _ => (setSlot s i _).trans (.slotLostEvent _ i _ _)) (fun _ => .setSlot s i _)

theorem emitFrame (s : State) : Moves s s.emitFrame := by
  have hadopted : Moves s (s.freshSamples.modTrunk (fun t => t.adopt s.config.slotCount s.slotTable)) :=
    (Move.fresh s).moves.trans (.modTrunk _ _ (Trunk.adopt_counts _ _ _))
  have hchanged := hadopted.trans (.foldl (State.changeAssignment (s.trunk.slotCount, s.trunk.table))
    (changeAssignment _) (List.finRange 64) _)
  exact (hchanged.trans (.modTrunk _ _ (.of_eq rfl rfl rfl))).trans (.advanceTransfers _)

/-! ### The rack link -/

theorem sendFrames (s : State) : Moves s s.sendFrames :=
  ((emitFrame s).trans (Move.send _).moves).trans (Move.outside _ _ _ _ _).moves

theorem periodEvent (s : State) : Moves s s.periodEvent := (cutWindows 65 s).trans (.sendFrames _)

theorem linkDown (s : State) : Moves s s.linkDown := (setLevels s _).trans (Move.cut _).moves

theorem silenceRise (s : State) : Moves s s.silenceRise :=
  .ite (fun _ => .linkDown s) (fun _ => .ite (fun _ => .modRack s _ ⟨rfl, .inr (.inl rfl), id⟩) (fun _ => .refl s))

theorem internalPeriod (s : State) : Moves s s.internalPeriod :=
  ((Move.outside s s.nowUs s.lines { s.timebase with internal := true } s.choices).moves.trans
    (.silenceRise _)).trans (.periodEvent _)

theorem discardFrame (s : State) : Moves s s.discardFrame := by
  refine .modRack s _ ⟨?_, ?_, fun _ => satSucc_le _ _⟩ <;> unfold RackLink.breakIfOpen <;> split
  · rfl
  · rfl
  · exact .inr (.inl rfl)
  · exact .inl rfl

theorem recordFrame (s : State) (f : DownFrame) : Moves s (s.recordFrame f) :=
  (Move.rack s (r := { s.rack with up := true, silence := 0, last := some { number := f.number, atUs := s.nowUs } })
    ⟨rfl, .inr (.inl rfl), id⟩).moves.trans
      (Move.outside _ s.nowUs s.lines { s.timebase with internal := false } s.choices).moves

end Moves

/-! ## Requests -/

/-- One complete request is decided, on a channel without a transaction and with no assembly open: by its owner, or
answered BAD_REQUEST (R11, R13, R14). -/
inductive Decides : State → State → Prop
  | submit (s : State) (r : Request) (hfree : s.rack.transaction = .none) (hempty : s.rack.assembly = none) :
      Decides s (s.submit r)
  | malformed (s : State) (code arm : Nat) (hfree : s.rack.transaction = .none) (hempty : s.rack.assembly = none) :
      Decides s ((s.refuse code arm .badRequest).conclude code false)

theorem Decides.completeRequest (s : State) (bytes : List Byte) (n : Nat) (hfree : s.rack.transaction = .none)
    (hempty : s.rack.assembly = none) : Decides s (s.completeRequest bytes n) := by
  unfold State.completeRequest
  split
  · exact .submit s _ hfree hempty
  · exact .malformed s _ _ hfree hempty

/-- Moves, with at most one request decided among them. -/
inductive Runs (s t : State) : Prop
  | quiet (h : Moves s t)
  | decided {u v : State} (h : Moves s u) (d : Decides u v) (k : Moves v t)

namespace Runs

theorem after {s t u : State} (k : Runs t u) (h : Moves s t) : Runs s u := by
  cases k with
  | quiet k => exact .quiet (h.trans k)
  | decided k d l => exact .decided (h.trans k) d l

theorem before {s t u : State} (h : Runs s t) (k : Moves t u) : Runs s u := by
  cases h with
  | quiet h => exact .quiet (h.trans k)
  | decided h d l => exact .decided h d (l.trans k)

theorem request (s : State) (code : RequestCode) (arm : Byte) (p : List Byte) : Runs s (s.request code arm p) := by
  unfold State.request State.whenPowered State.takeRequest
  split
  · dsimp only
    split
    · next h =>
      exact .decided (.modRack s (fun r => { r with assembly := none }) ⟨rfl, .inl rfl, id⟩) (.submit _ _ h rfl) (.refl _)
    · exact .quiet (.modRack s _ ⟨rfl, .inr (.inl rfl), id⟩)
  · exact .quiet (.refl s)

theorem assemble (s : State) (f : DownFrame) (hfree : s.rack.transaction = .none) : Runs s (s.assemble f) := by
  have hlink : ∀ g : RackLink → RackLink, (g s.rack).transaction = s.rack.transaction → (g s.rack).errors = s.rack.errors →
      Moves s (s.modRack g) := fun g ht he => .modRack s g ⟨ht, .inr (.inr hfree), fun h => he ▸ h⟩
  unfold State.assemble
  split
  · exact .quiet (.refl s)
  · exact .quiet (hlink _ rfl rfl)
  · exact .quiet (hlink _ rfl rfl)
  · exact .quiet (hlink _ rfl rfl)
  · exact .quiet (hlink _ rfl rfl)
  · exact .quiet (hlink _ rfl rfl)
  · exact .quiet (hlink _ rfl rfl)
  · exact .decided (hlink (fun r => { r with assembly := none }) rfl rfl) (.completeRequest _ _ _ hfree rfl) (.refl _)
  · next h _ => exact .decided (.refl s) (.completeRequest _ _ _ hfree h) (.refl _)
  · exact .decided (hlink RackLink.breakAssembly rfl rfl) (.completeRequest _ _ _ hfree rfl) (.refl _)

theorem checkGap (r : RackLink) (n : Byte) : r.Runs (r.checkGap n) := by
  unfold RackLink.checkGap
  split
  · exact ⟨rfl, .inr (.inl rfl), id⟩
  · split
    · exact ⟨rfl, .inr (.inl rfl), id⟩
    · exact ⟨rfl, .inl rfl, id⟩

theorem takeSegment (s : State) (f : DownFrame) : Runs s (s.takeSegment f) := by
  unfold State.takeSegment
  split
  · next h =>
    have hgap := checkGap s.rack f.number
    exact (assemble _ f (hgap.1.trans h)).after (.modRack s _ hgap)
  · split
    · exact .quiet (.refl s)
    · exact .quiet (.modRack s _ ⟨rfl, .inr (.inl rfl), id⟩)

theorem receiveFrame (s : State) (bytes : List Byte) : Runs s (s.receiveFrame bytes) := by
  unfold State.receiveFrame
  split
  · exact .quiet (.discardFrame s)
  · next f _ =>
    split
    · have hcut := (Moves.recordFrame s f).trans (.cutWindows 65 _)
      exact ((takeSegment _ f).after (hcut.trans (.setLevels _ _))).before (.sendFrames _)
    · exact .quiet (.discardFrame s)

/-- What is done only with the supply on. -/
theorem whenPowered (s : State) (f : State → State) (h : Moves s (f s)) : Runs s (s.whenPowered f) :=
  .quiet (.ite (fun _ => h) (fun _ => .refl s))

end Runs

/-- A command is a reset or a loss of supply. -/
def Restarts : Instr → Prop
  | .powerUp | .rst | .deviceReset | .powerDown => True
  | _ => False

/-- Every command but a reset or a loss of supply is moves, with at most one request decided among them. -/
theorem exec_runs {c : Instr} {s t : State} (hc : ¬ Restarts c) (h : exec c s = .next t) : Runs s t := by
  cases c <;> cases h
  case powerUp | rst | deviceReset | powerDown => exact absurd trivial hc
  case rackFrameReceived us f =>
    unfold State.whenPowered
    split
    · exact (Runs.receiveFrame _ f).after (Move.outside s (s.nowUs + us) s.lines s.timebase s.choices).moves
    · exact .quiet (.refl s)
  case timebaseRackTimeout =>
    exact .whenPowered s _ (.ite (fun _ => .refl s)
      (fun _ => (Move.outside s _ s.lines s.timebase s.choices).moves.trans (.internalPeriod _)))
  case timebaseInternalPeriod =>
    exact .whenPowered s _ (.ite
      (fun _ => (Move.outside s _ s.lines s.timebase s.choices).moves.trans (.internalPeriod _)) (fun _ => .refl s))
  case linkLoss => exact .whenPowered s _ (.ite (fun _ => .linkDown s) (fun _ => .refl s))
  case answerWindowClose => exact .whenPowered s _ (.closeWindow s _)
  case lateWordDrop => exact .quiet (.refl s)
  case slotLost =>
    refine .whenPowered s _ ?_
    split
    · exact .refl s
    · exact .ite (fun _ => .loseSlot s _ _ _) (fun _ => .refl s)
  case trunkDown =>
    exact .whenPowered s _ (.ite (fun _ => (Moves.modTrunk s _ (.of_eq rfl rfl rfl)).trans (.trunkDownEvent _))
      (fun _ => .refl s))
  case testEnd => exact .whenPowered s _ (.ite (fun _ => .endTest s) (fun _ => .refl s))
  case startWindowExpiry => exact .whenPowered s _ (.ite (fun _ => (Move.expire s _).moves) (fun _ => .refl s))
  case tempLost => exact .whenPowered s _ (.ite (fun _ => .cause s _ _) (fun _ => .refl s))
  case ratioFault =>
    refine .whenPowered s _ ?_
    split
    · exact .refl s
    · exact .ite (fun _ => .keepArm s _ _ (.bandCheck _ _)) (fun _ => .refl s)
  case shotTimeout => exact .whenPowered s _ (.ite (fun _ => .keepArm s _ _ (.ageShot _ _)) (fun _ => .refl s))
  case holdTimeout => exact .whenPowered s _ (.ite (fun _ => .holdExpire s _) (fun _ => .refl s))
  case armSettled =>
    exact .whenPowered s _ (.ite (fun _ => (Moves.storeZero s _).trans (.settle _ _)) (fun _ => .refl s))
  case settleLimit => exact .whenPowered s _ (.ite (fun h => .settleExpire s _ h.1) (fun _ => .refl s))
  case saveComplete => exact .whenPowered s _ (Move.saved s _).moves
  case commitComplete => exact .whenPowered s _ (Move.committed s _).moves
  case permitLineChange => exact .quiet (.permitLine s _ _)
  case estopChange => exact .quiet (.estopLine s _)
  case certChange => exact .quiet (.certLine s _)
  case serviceTimeout => exact .whenPowered s _ (.ite (fun _ => .abandonTransfer s _ _) (fun _ => .refl s))
  all_goals exact .request s _ _ _

/-- A reset or a loss of supply restarts the part from the torn array, or leaves it. -/
theorem exec_restarts {c : Instr} {s t : State} (hc : Restarts c) (h : exec c s = .next t) :
    t = s ∨ ∃ powered, t = s.restart powered s.torn := by
  cases c <;> cases h
  case powerUp => exact .inr ⟨true, rfl⟩
  case powerDown => exact .inr ⟨false, rfl⟩
  case rst => exact (em (s.powered = true)).elim (fun h => .inr ⟨true, if_pos h⟩) (fun h => .inl (if_neg h))
  case deviceReset =>
    unfold State.whenPowered
    dsimp only
    split_ifs
    · exact .inr ⟨true, rfl⟩
    · exact .inl rfl
    · exact .inl rfl
  all_goals exact hc.elim

/-- A property that moves, decided requests and restarts keep is kept by every step. -/
theorem step_keeps {P : State → Prop} (hqueue : ∀ s rest, P s → P { s with pending := rest })
    (hmove : ∀ s t, Move s t → P s → P t) (hdecides : ∀ s t, Decides s t → P s → P t)
    (hrestart : ∀ s powered, P s → P (s.restart powered s.torn)) {s t : State} (h : step s = .next t) (hs : P s) :
    P t := by
  unfold step at h
  split at h
  · cases h
    exact hs
  · next c rest _ =>
    have hrest := hqueue s rest hs
    by_cases hc : Restarts c
    · obtain rfl | ⟨powered, rfl⟩ := exec_restarts hc h
      · exact hrest
      · exact hrestart _ powered hrest
    · cases exec_runs hc h with
      | quiet k => exact k.keeps hmove hrest
      | decided k d l => exact l.keeps hmove (hdecides _ _ d (k.keeps hmove hrest))

end Sys2Proof.Machine
end

section
/-! PROOFS. What a decided request comes to: a refusal, a transfer begun, or one of the owners' changes and its answer
(R13, R14). -/

namespace Sys2Proof.Machine

/-- What an owner does at the acceptance of a request, before the response is fixed. -/
inductive Accepts : State → State → Prop
  | nothing (s : State) : Accepts s s
  | clearSense (s : State) (arm : Nat) : Accepts s (s.clearSense arm)
  | authorize {s : State} {a : Fin 8} {f : AuthorizeFields} {i : Fin 64} {r : Recipe}
      (h : s.authorizeDecision a f = .ok (i, r)) : Accepts s (s.authorizeArm a f i r)
  | start {s : State} {a : Fin 8} {flag : Nat} {c : Context} {join : Bool}
      (h : s.startDecision a flag = .ok (c, join)) : Accepts s (s.startArm a c join)
  | cancel {s t : State} {a : Fin 8} (h : s.cancelArm a = some t) : Accepts s t
  | clearFault {s t : State} {a : Fin 8} (h : s.clearArm a = some t) : Accepts s t
  | counters (s : State) : Accepts s s.clearCounters
  | test {s : State} {n : Nat} (h : s.testRefusal n = none) : Accepts s (s.startTest n)
  | latch (s : State) (l : Latch) : Accepts s (s.modStore (fun k => { k with latch := l }))
  | store {s : State} {p : List Byte} {c : Content} (h : s.storeDecision p = .ok c) : Accepts s (s.acceptStore c)

/-- A request is answered: accepted with a response, refused, or accepted as a transfer whose response is held. -/
inductive Answers : State → State → Prop
  | accepted {s u : State} (h : Accepts s u) (code : Nat) (payload : List Byte) (reset prepare : Bool) :
      Answers s ((u.respond code payload reset).conclude code prepare)
  | refused (s : State) (code arm : Nat) (c : Sense) (prepare : Bool) :
      Answers s ((s.refuse code arm c).conclude code prepare)
  | service {s : State} {a : Fin 8} {p : List Byte} {i : Fin 64} {write meterWrite : Bool}
      (h : s.serviceDecision a p = .ok (i, write, meterWrite)) (q : List Byte) (code : Nat) (prepare : Bool) :
      Answers s ((s.acceptService a i write meterWrite q).conclude code prepare)

/-- An arm-directed request is answered by its owner. -/
theorem Answers.serveArm (s : State) (code : RequestCode) (hcode : code ∈ [RequestCode.authorize, .start, .cancel,
    .clearFault, .readRecord, .service]) (a : Fin 8) (arm : Byte) (p : List Byte) (prepare : Bool) :
    Answers s ((s.serveArm code a arm p).conclude code.code prepare) := by
  have hdeny : ∀ c, Answers s ((s.deny code arm c).conclude code.code prepare) := fun c => .refused s _ _ c prepare
  cases code <;> dsimp only [State.serveArm]
  case authorize =>
    split
    · exact hdeny _
    · next h => exact .accepted (.authorize h) _ _ _ _
  case start =>
    split
    · exact hdeny _
    · next h => exact .accepted (.start h) _ _ _ _
  case cancel =>
    split
    · exact hdeny _
    · next h => exact .accepted (.cancel h) _ _ _ _
  case clearFault =>
    split
    · exact hdeny _
    · next h => exact .accepted (.clearFault h) _ _ _ _
  case readRecord =>
    split
    · exact hdeny _
    · exact .accepted (.nothing s) _ _ _ _
  case service =>
    split
    · exact hdeny _
    · next h => exact .service h _ _ _
  all_goals exact absurd hcode (by decide)

theorem Answers.serve (s : State) (code : RequestCode) (arm : Byte) (p : List Byte) (prepare : Bool) :
    Answers s ((s.serve code arm p).conclude code.code prepare) := by
  have hdeny : ∀ c, Answers s ((s.deny code arm c).conclude code.code prepare) := fun c => .refused s _ _ c prepare
  cases code <;> dsimp only [State.serve]
  case getSense => exact .accepted (.clearSense s _) _ _ _ _
  case readTotals | readStoreStatus | resetPrepare => exact .accepted (.nothing s) _ _ _ _
  case readCounters => exact .accepted (.counters s) _ _ _ _
  case storeDisable => exact .accepted (.latch s _) _ _ _ _
  case trunkTest =>
    split
    · exact hdeny _
    · next h => exact .accepted (.test h) _ _ _ _
  case storeEnable =>
    split
    · exact hdeny _
    · exact .accepted (.latch s _) _ _ _ _
  case store =>
    split
    · exact hdeny _
    · next h => exact .accepted (.store h) _ _ _ _
  case readTable =>
    split
    · exact hdeny _
    · exact .accepted (.nothing s) _ _ _ _
  case resetDevice =>
    split
    · exact hdeny _
    · exact .accepted (.nothing s) _ _ _ _
  all_goals
    split
    · next a _ => exact .serveArm s _ (by decide) a arm p prepare
    · exact hdeny _

theorem Decides.answers {s t : State} (h : Decides s t) : Answers s t := by
  cases h with
  | submit r =>
    unfold State.submit
    split
    · exact .serve s _ _ _ _
    · exact .refused s _ _ _ _
  | malformed code arm => exact .refused s code arm _ _

theorem Decides.free {s t : State} (h : Decides s t) : s.rack.transaction = .none ∧ s.rack.assembly = none := by
  cases h with
  | submit _ hfree hempty => exact ⟨hfree, hempty⟩
  | malformed _ _ hfree hempty => exact ⟨hfree, hempty⟩

/-! ## What answering leaves alone -/

/-- A refusal changes the sense code of its arm, or of the device, and the rack link's channel. -/
theorem State.refuse_cases (s : State) (code arm : Nat) (c : Sense) :
    (∃ a : Fin 8, s.refuse code arm c =
      (s.modArm a (fun x => x.note c)).modRack (fun r => r.fixResponse code true c false [] false)) ∨
    s.refuse code arm c = (s.noteDevice c).modRack (fun r => r.fixResponse code true c false [] false) := by
  unfold State.refuse State.recordRefusal
  split
  · exact .inl ⟨_, rfl⟩
  · exact .inr rfl

section
variable (s : State) (code arm : Nat) (c : Sense)

@[simp] theorem State.refuse_store : (s.refuse code arm c).store = s.store := by
  obtain ⟨a, h⟩ | h := s.refuse_cases code arm c <;> rw [h] <;> rfl
@[simp] theorem State.refuse_nv : (s.refuse code arm c).nv = s.nv := by
  obtain ⟨a, h⟩ | h := s.refuse_cases code arm c <;> rw [h] <;> rfl
@[simp] theorem State.refuse_tables : (s.refuse code arm c).tables = s.tables := by
  obtain ⟨a, h⟩ | h := s.refuse_cases code arm c <;> rw [h] <;> rfl
@[simp] theorem State.refuse_meters : (s.refuse code arm c).meters = s.meters := by
  obtain ⟨a, h⟩ | h := s.refuse_cases code arm c <;> rw [h] <;> rfl
@[simp] theorem State.refuse_trunk : (s.refuse code arm c).trunk = s.trunk := by
  obtain ⟨a, h⟩ | h := s.refuse_cases code arm c <;> rw [h] <;> rfl
@[simp] theorem State.refuse_windows : (s.refuse code arm c).windows = s.windows := by
  obtain ⟨a, h⟩ | h := s.refuse_cases code arm c <;> rw [h] <;> rfl
@[simp] theorem State.refuse_transfers : (s.refuse code arm c).transfers = s.transfers := by
  obtain ⟨a, h⟩ | h := s.refuse_cases code arm c <;> rw [h] <;> rfl

/-- A refusal keeps the batch of every arm. -/
theorem State.refuse_sameBatch (b : Fin 8) : (s.arm b).SameBatch ((s.refuse code arm c).arm b) := by
  obtain ⟨a, h⟩ | h := s.refuse_cases code arm c
  · rw [h, State.modRack_arm, State.arm_modArm]
    exact .ite (fun _ => .note _ c) (fun _ => .refl _)
  · rw [h]
    exact .refl _

end

/-- A transfer that ends without a reply is released, with a refusal where its response is wanted (R166). -/
theorem State.abandonTransfer_cases (s : State) (a : Fin 8) (code : Sense) :
    (s.transfers[a].wanted = true ∧ s.abandonTransfer a code =
      ((s.setTransfer a Transfer.released).modArm a (fun x => x.note code)).modRack
        (fun r => r.fixResponse RequestCode.service.code true code false [] false)) ∨
    (s.transfers[a].wanted = false ∧ s.abandonTransfer a code = s.setTransfer a Transfer.released) := by
  unfold State.abandonTransfer State.refuse State.recordRefusal
  dsimp only
  rw [dif_pos a.isLt]
  split
  · next h => exact .inl ⟨h, rfl⟩
  · next h => exact .inr ⟨by simpa using h, rfl⟩

/-- A transfer that ends with its reply is released, with its response where that is wanted (R165). -/
theorem State.releaseReply_cases (s : State) (a : Fin 8) (t : Transfer) :
    (t.wanted = true ∧ s.releaseReply a t = (s.setTransfer a Transfer.released).modRack
      (fun r => r.fixResponse RequestCode.service.code false .none t.truncated t.reply false)) ∨
    (t.wanted = false ∧ s.releaseReply a t = s.setTransfer a Transfer.released) := by
  unfold State.releaseReply
  dsimp only
  split
  · next h => exact .inl ⟨h, rfl⟩
  · next h => exact .inr ⟨by simpa using h, rfl⟩

end Sys2Proof.Machine
end

section
/-! PROOFS. What the store engine, the array and the tables take from moves and requests, and the three invariants about
them: the queue keeps its form, the metrological change counter never falls, a protected recipe stays (R143, R152, R154,
R157). -/

namespace Sys2Proof.Machine

/-! ## Moves and requests on the store, the array and the tables -/

/-- A move asks for saves at most, or it is one of the three that act on the store engine itself. -/
theorem Move.store_cases {s t : State} (h : Move s t) :
    (SavesAsked s.store t.store ∧ t.nv = s.nv ∧ t.tables = s.tables) ∨ t = s.cutLink ∨
    (∃ b, t = s.completeSave b) ∨ ∃ b, t = s.completeCommit b := by
  have hfield : ∀ {u : State}, FieldSide s u → SavesAsked s.store u.store ∧ u.nv = s.nv ∧ u.tables = s.tables :=
    fun k => ⟨k.store, k.nv, k.tables⟩
  cases h with
  | arm => exact .inl ⟨.refl _, rfl, rfl⟩
  | save a => exact .inl (hfield (.requestSave s a))
  | back a c => exact .inl (hfield (.returnPending s a c))
  | expire l => exact .inl (hfield (.expireWindow s l))
  | wait => exact .inl ⟨.refl _, rfl, rfl⟩
  | meter a p => exact .inl (hfield (.setMeter s a p _))
  | fresh => exact .inl ⟨.refl _, rfl, rfl⟩
  | trunk => exact .inl ⟨.refl _, rfl, rfl⟩
  | abandon a code => have k := TrunkSide.abandonTransfer s a code; exact .inl ⟨k.store, k.nv, k.tables⟩
  | @release a u _ => have k := TrunkSide.releaseReply s a u; exact .inl ⟨k.store, k.nv, k.tables⟩
  | transfers => exact .inl ⟨.refl _, rfl, rfl⟩
  | outside => exact .inl ⟨.refl _, rfl, rfl⟩
  | rack => exact .inl ⟨.refl _, rfl, rfl⟩
  | send => exact .inl ⟨.refl _, rfl, rfl⟩
  | cut => exact .inr (.inl rfl)
  | saved b => exact .inr (.inr (.inl ⟨b, rfl⟩))
  | committed b => exact .inr (.inr (.inr ⟨b, rfl⟩))

section
variable (s : State) (a : Fin 8)

@[simp] theorem State.leaveWindow_store : (s.leaveWindow a).store = s.store := by unfold State.leaveWindow; split <;> rfl
@[simp] theorem State.leaveWindow_nv : (s.leaveWindow a).nv = s.nv := by unfold State.leaveWindow; split <;> rfl
@[simp] theorem State.leaveWindow_tables : (s.leaveWindow a).tables = s.tables := by unfold State.leaveWindow; split <;> rfl
@[simp] theorem State.leaveWindow_meters : (s.leaveWindow a).meters = s.meters := by unfold State.leaveWindow; split <;> rfl
@[simp] theorem State.leaveWindow_rack : (s.leaveWindow a).rack = s.rack := by unfold State.leaveWindow; split <;> rfl
@[simp] theorem State.leaveWindow_trunk : (s.leaveWindow a).trunk = s.trunk := by unfold State.leaveWindow; split <;> rfl
@[simp] theorem State.leaveWindow_transfers : (s.leaveWindow a).transfers = s.transfers := by
  unfold State.leaveWindow; split <;> rfl

end

/-- CANCEL withdraws an AUTHORIZED batch or takes a pending arm out of its window (R85). -/
theorem State.cancelArm_cases {s t : State} {a : Fin 8} (h : s.cancelArm a = some t) :
    ((s.arm a).state = .authorized ∧ t = s.modArm a Arm.withdrawn) ∨
    ((s.arm a).state = .startPending ∧ t = (s.leaveWindow a).modArm a (fun x => { x with state := .authorized })) := by
  unfold State.cancelArm at h
  split at h <;> cases h
  · next e => exact .inl ⟨e, rfl⟩
  · next e => exact .inr ⟨e, rfl⟩

/-- CLEAR_FAULT acts on a FAULTED arm (R101). -/
theorem State.clearArm_cases {s t : State} {a : Fin 8} (h : s.clearArm a = some t) :
    (s.arm a).state = .faulted ∧ t = s.modArm a Arm.faultCleared := by
  unfold State.clearArm at h
  split at h <;> cases h
  next e => exact ⟨e, rfl⟩

/-- An acceptance acts on the store only as STORE_ENABLE, STORE_DISABLE or STORE. -/
theorem Accepts.store_cases {s t : State} (h : Accepts s t) :
    (t.store = s.store ∧ t.nv = s.nv ∧ t.tables = s.tables ∧ t.meters = s.meters ∧
      t.transfers = s.transfers ∧ t.rack.assembly = s.rack.assembly) ∨
    (∃ l, t = s.modStore (fun k => { k with latch := l })) ∨
    ∃ p c, s.storeDecision p = .ok c ∧ t = s.acceptStore c := by
  cases h with
  | clearSense arm => exact .inl (by unfold State.clearSense; split <;> exact ⟨rfl, rfl, rfl, rfl, rfl, rfl⟩)
  | start h => exact .inl (by unfold State.startArm; split <;> exact ⟨rfl, rfl, rfl, rfl, rfl, rfl⟩)
  | cancel h => obtain ⟨-, rfl⟩ | ⟨-, rfl⟩ := State.cancelArm_cases h <;> exact .inl (by simp)
  | clearFault h => obtain ⟨-, rfl⟩ := State.clearArm_cases h; exact .inl ⟨rfl, rfl, rfl, rfl, rfl, rfl⟩
  | latch l => exact .inr (.inl ⟨l, rfl⟩)
  | store h => exact .inr (.inr ⟨_, _, h, rfl⟩)
  | _ => exact .inl ⟨rfl, rfl, rfl, rfl, rfl, rfl⟩

/-! ## STORE accepted -/

/-- STORE is accepted only with the latch set, the store not busy, in-range content, and none of conditions 4 to 7 in its
way (R150). -/
theorem State.storeDecision_ok {s : State} {p : List Byte} {c : Content} :
    s.storeDecision p = .ok c ↔ s.store.latch ≠ .clear ∧ s.store.status ≠ .busy ∧ decodeContent p = some c ∧
      s.badMode c = false ∧ s.protectedStore c = false ∧ s.certBars c = false ∧ s.batchesBar c = false := by
  unfold State.storeDecision
  constructor
  · intro h
    split_ifs at h with hlatch hbusy
    split at h
    · cases h
    · next d hd =>
      split_ifs at h with h4 h5 h6 h7
      cases h
      exact ⟨hlatch, hbusy, hd, by simpa using h4, by simpa using h5, by simpa using h6, by simpa using h7⟩
  · rintro ⟨hlatch, hbusy, hd, h4, h5, h6, h7⟩
    simp [hlatch, hbusy, hd, h4, h5, h6, h7]

section
variable (s : State) (c : Content)

@[simp] theorem State.rebaseMeters_store : (s.rebaseMeters c).store = s.store := by cases c <;> simp [State.rebaseMeters]
@[simp] theorem State.rebaseMeters_nv : (s.rebaseMeters c).nv = s.nv := by cases c <;> simp [State.rebaseMeters]
@[simp] theorem State.rebaseMeters_tables : (s.rebaseMeters c).tables = s.tables := by cases c <;> simp [State.rebaseMeters]

@[simp] theorem State.writeWorking_store : (s.writeWorking c).store = s.store := by
  unfold State.writeWorking; dsimp only; split <;> simp
@[simp] theorem State.writeWorking_tables :
    (s.writeWorking c).tables = s.tables.write (s.store.latch == .working) c := by
  unfold State.writeWorking; dsimp only; split <;> simp
theorem State.writeWorking_nv : (s.writeWorking c).nv =
    if s.metrological c then { s.nv with metroCounter := satSucc 65535 s.nv.metroCounter } else s.nv := by
  unfold State.writeWorking; dsimp only; split <;> simp

end

section
variable (s : State) (op : QueuedOp)

@[simp] theorem State.joinQueue_rack : (s.joinQueue op).rack = s.rack := by unfold State.joinQueue; split <;> rfl
@[simp] theorem State.joinQueue_trunk : (s.joinQueue op).trunk = s.trunk := by unfold State.joinQueue; split <;> rfl
@[simp] theorem State.joinQueue_windows : (s.joinQueue op).windows = s.windows := by unfold State.joinQueue; split <;> rfl
@[simp] theorem State.joinQueue_transfers : (s.joinQueue op).transfers = s.transfers := by
  unfold State.joinQueue; split <;> rfl
@[simp] theorem State.beginNext_rack : s.beginNext.rack = s.rack := by rw [State.beginNext_eq]
@[simp] theorem State.beginNext_trunk : s.beginNext.trunk = s.trunk := by rw [State.beginNext_eq]
@[simp] theorem State.beginNext_windows : s.beginNext.windows = s.windows := by rw [State.beginNext_eq]
@[simp] theorem State.beginNext_transfers : s.beginNext.transfers = s.transfers := by rw [State.beginNext_eq]

end

section
variable (s : State) (c : Content)

@[simp] theorem State.rebaseMeters_rack : (s.rebaseMeters c).rack = s.rack := by cases c <;> simp [State.rebaseMeters]
@[simp] theorem State.rebaseMeters_trunk : (s.rebaseMeters c).trunk = s.trunk := by cases c <;> simp [State.rebaseMeters]
@[simp] theorem State.rebaseMeters_windows : (s.rebaseMeters c).windows = s.windows := by
  cases c <;> simp [State.rebaseMeters]
@[simp] theorem State.rebaseMeters_transfers : (s.rebaseMeters c).transfers = s.transfers := by
  cases c <;> simp [State.rebaseMeters]
@[simp] theorem State.acceptStore_rack : (s.acceptStore c).rack = s.rack := by
  unfold State.acceptStore State.queueCommit State.writeWorking; dsimp only; split_ifs <;> simp
@[simp] theorem State.acceptStore_trunk : (s.acceptStore c).trunk = s.trunk := by
  unfold State.acceptStore State.queueCommit State.writeWorking; dsimp only; split_ifs <;> simp
@[simp] theorem State.acceptStore_windows : (s.acceptStore c).windows = s.windows := by
  unfold State.acceptStore State.queueCommit State.writeWorking; dsimp only; split_ifs <;> simp
@[simp] theorem State.acceptStore_transfers : (s.acceptStore c).transfers = s.transfers := by
  unfold State.acceptStore State.queueCommit State.writeWorking; dsimp only; split_ifs <;> simp

end

@[simp] theorem State.joinQueue_nv (s : State) (op : QueuedOp) : (s.joinQueue op).nv = s.nv := by
  unfold State.joinQueue; split <;> rfl
@[simp] theorem State.joinQueue_tables (s : State) (op : QueuedOp) : (s.joinQueue op).tables = s.tables := by
  unfold State.joinQueue; split <;> rfl
@[simp] theorem State.joinQueue_meters (s : State) (op : QueuedOp) : (s.joinQueue op).meters = s.meters := by
  unfold State.joinQueue; split <;> rfl
@[simp] theorem State.beginNext_nv (s : State) : s.beginNext.nv = s.nv := by rw [State.beginNext_eq]
@[simp] theorem State.beginNext_tables (s : State) : s.beginNext.tables = s.tables := by rw [State.beginNext_eq]
@[simp] theorem State.beginNext_meters (s : State) : s.beginNext.meters = s.meters := by rw [State.beginNext_eq]

@[simp] theorem State.acceptStore_nv (s : State) (c : Content) : (s.acceptStore c).nv = (s.writeWorking c).nv := by
  unfold State.acceptStore
  split
  · simp [State.queueCommit]
  · rfl

@[simp] theorem State.acceptStore_tables (s : State) (c : Content) :
    (s.acceptStore c).tables = s.tables.write (s.store.latch == .working) c := by
  unfold State.acceptStore
  split
  · simp [State.queueCommit]
  · simp

/-! ## The queue of the store engine -/

/-- The operation that waits first begins: the rest keeps the form of the queue. -/
theorem State.beginNext_queueGood (s : State) (hsaves : ∀ a, s.store.queue.count (.save a) ≤ 1)
    (hcommits : commitsIn s.store.queue = if s.store.status = .busy then 1 else 0) : s.beginNext.store.QueueGood := by
  rw [State.beginNext_eq]
  cases hq : s.store.queue with
  | nil => exact ⟨fun _ => rfl, fun a => by simp, by simpa [hq, commitUnderWay, commitsIn] using hcommits⟩
  | cons op rest =>
    rw [hq] at hsaves hcommits
    refine ⟨nofun, fun a => (List.count_le_count_cons).trans (hsaves a), ?_⟩
    cases op <;> simpa [commitsIn, commitUnderWay, State.beginOp, Nat.add_comm] using hcommits

/-- A commit joins the queue of a store that is not busy (R151, R152). -/
theorem State.queueCommit_queueGood (s : State) (c : Content) (hgood : s.store.QueueGood)
    (hidle : s.store.status ≠ .busy) : (s.queueCommit c).store.QueueGood := by
  obtain ⟨hempty, hsaves, hcommits⟩ := hgood
  rw [if_neg hidle] at hcommits
  unfold State.queueCommit
  by_cases hu : s.store.underWay = none
  · rw [((s.modStore _).joinQueue_eq _).1 (by simpa using hu)]
    refine ⟨nofun, by simpa using hsaves, ?_⟩
    simp [State.beginOp, commitUnderWay, hempty hu, commitsIn]
  · rw [((s.modStore _).joinQueue_eq _).2 (by simpa using hu)]
    refine ⟨fun h => absurd h hu, fun a => by simpa using hsaves a, ?_⟩
    simp only [State.modStore_store, commitsIn, List.countP_append] at hcommits ⊢
    simp only [List.countP_singleton, if_true]
    omega

theorem State.acceptStore_queueGood {s : State} {p : List Byte} {c : Content} (h : s.storeDecision p = .ok c)
    (hgood : s.store.QueueGood) : (s.acceptStore c).store.QueueGood := by
  obtain ⟨-, hidle, -⟩ := State.storeDecision_ok.1 h
  unfold State.acceptStore
  split
  · exact State.queueCommit_queueGood _ c (by simpa using hgood) (by simpa using hidle)
  · simpa using hgood

theorem Answers.queueGood {s t : State} (h : Answers s t) (hgood : s.store.QueueGood) : t.store.QueueGood := by
  cases h with
  | accepted h =>
    obtain ⟨e, -⟩ | ⟨l, rfl⟩ | ⟨p, c, hok, rfl⟩ := h.store_cases
    · simpa [State.conclude, State.respond, StoreCtl.QueueGood, e] using hgood
    · exact hgood
    · exact State.acceptStore_queueGood hok hgood
  | refused code arm c prepare => simpa [State.conclude, StoreCtl.QueueGood] using hgood
  | service h => simpa [State.conclude, State.acceptService, StoreCtl.QueueGood, apply_ite State.store] using hgood

theorem Move.queueGood {s t : State} (h : Move s t) (hgood : s.store.QueueGood) : t.store.QueueGood := by
  obtain ⟨hasked, -⟩ | rfl | ⟨b, rfl⟩ | ⟨b, rfl⟩ := h.store_cases
  · exact hasked.queueGood hgood
  · exact hgood
  · have ⟨_, hsaves, hcommits⟩ := hgood
    unfold State.completeSave
    split
    · next a c image hu =>
      rw [hu, commitUnderWay, Nat.zero_add] at hcommits
      refine State.beginNext_queueGood _ ?_ ?_ <;> cases b <;> assumption
    · exact hgood
  · have ⟨_, hsaves, hcommits⟩ := hgood
    unfold State.completeCommit
    split
    · next c hu =>
      rw [hu, commitUnderWay] at hcommits
      have hnone : commitsIn s.store.queue = 0 := by split at hcommits <;> omega
      exact State.beginNext_queueGood _ hsaves (by cases b <;> exact hnone)
    · exact hgood

/-- The operations waiting are the commits and the saves of each arm. -/
theorem queue_length_eq (q : List QueuedOp) : q.length = commitsIn q + ∑ a : Fin 8, q.count (.save a) := by
  induction q with
  | nil => simp [commitsIn]
  | cons op q ih =>
    cases op with
    | commit c => simp [commitsIn] at ih ⊢; omega
    | save b => simp [commitsIn, List.count_cons, Finset.sum_add_distrib] at ih ⊢; omega

/-- A queue in its form holds at most one commit and one save for each arm beside the operation under way. -/
theorem StoreCtl.QueueGood.operations_le {c : StoreCtl} (h : c.QueueGood) : c.operations ≤ 10 := by
  obtain ⟨-, hsaves, hcommits⟩ := h
  have hsum : ∑ a : Fin 8, c.queue.count (.save a) ≤ ∑ _a : Fin 8, 1 := Finset.sum_le_sum fun a _ => hsaves a
  have hlength := queue_length_eq c.queue
  have hone : commitsIn c.queue ≤ 1 := by split at hcommits <;> omega
  have height : ∑ _a : Fin 8, 1 = 8 := rfl
  unfold StoreCtl.operations
  split <;> omega

/-- Settles O10: each move and each request keeps the form of the queue, and a queue of that form is short. -/
theorem queueStaysGood : Obligations.QueueStaysGood := by
  intro s t hgood h
  have hkept : t.store.QueueGood := step_keeps (P := fun s => s.store.QueueGood) (fun _ _ => id)
    (fun _ _ => Move.queueGood) (fun _ _ d => d.answers.queueGood)
    (fun _ _ _ => ⟨fun _ => rfl, fun _ => Nat.zero_le _, rfl⟩) h hgood
  exact ⟨hkept, hkept.operations_le⟩

/-! ## The metrological change counter -/

@[simp] theorem State.torn_metroCounter (s : State) : s.torn.metroCounter = s.nv.metroCounter := by
  unfold State.torn
  split <;> rfl

theorem Move.metroCounter {s t : State} (h : Move s t) : t.nv.metroCounter = s.nv.metroCounter := by
  obtain ⟨-, hnv, -⟩ | rfl | ⟨b, rfl⟩ | ⟨b, rfl⟩ := h.store_cases
  · rw [hnv]
  · rfl
  · unfold State.completeSave
    split
    · cases b <;> simp [State.finishSave, Nonvolatile.putSave]
    · rfl
  · unfold State.completeCommit
    split
    · simp [State.finishCommit, Nonvolatile.putEntry]
    · rfl

/-- A request raises the counter once or leaves it (R157). -/
theorem Answers.metroCounter {s t : State} (h : Answers s t) :
    t.nv.metroCounter = s.nv.metroCounter ∨ t.nv.metroCounter = satSucc 65535 s.nv.metroCounter := by
  cases h with
  | accepted h =>
    obtain ⟨-, hnv, -⟩ | ⟨l, rfl⟩ | ⟨p, c, -, rfl⟩ := h.store_cases
    · exact .inl (congrArg Nonvolatile.metroCounter hnv)
    · exact .inl rfl
    · simp only [State.conclude, State.respond, State.modStore_nv, State.modRack_nv, State.acceptStore_nv,
        State.writeWorking_nv]
      split
      · exact .inr rfl
      · exact .inl rfl
  | refused => exact .inl (by simp [State.conclude])
  | service =>
    simp only [State.conclude, State.acceptService, State.modStore_nv, State.modRack_nv]
    split
    · exact .inr rfl
    · exact .inl rfl

/-- Settles O11: only a request raises the counter, and resets keep it. -/
theorem metroCounterNeverDecreases : Obligations.MetroCounterNeverDecreases := by
  intro s t hmax h
  refine step_keeps (P := fun u => s.nv.metroCounter ≤ u.nv.metroCounter ∧ u.nv.metroCounter ≤ 65535)
    (fun _ _ => id) (fun _ _ m hu => m.metroCounter ▸ hu) (fun u v d hu => ?_)
    (fun u _ hu => u.torn_metroCounter.symm ▸ hu) h ⟨le_rfl, hmax⟩
  obtain e | e := d.answers.metroCounter
  · rwa [e]
  · rw [e, satSucc]
    split <;> omega

/-! ## A protected recipe -/

/-- A move changes no working copy: a commit sets a flag only. -/
theorem Move.content {s t : State} (h : Move s t) (k : EntryKey) : t.tables.content k = s.tables.content k := by
  obtain ⟨-, -, ht⟩ | rfl | ⟨b, rfl⟩ | ⟨b, rfl⟩ := h.store_cases
  · rw [ht]
  · rfl
  · unfold State.completeSave
    split
    · cases b <;> simp [State.finishSave]
    · rfl
  · unfold State.completeCommit
    split
    · simp [State.finishCommit, (s.tables.setInvalid_keeps (!b) _ k).1]
    · rfl

theorem Moves.content {s t : State} (h : Moves s t) (k : EntryKey) : t.tables.content k = s.tables.content k :=
  h.keeps (P := fun u => u.tables.content k = s.tables.content k) (fun _ _ m e => (m.content k).trans e) rfl

/-- A request changes a working copy only as an accepted STORE of that entry (R150, R151). -/
theorem Answers.content {s t : State} (h : Answers s t) (k : EntryKey) :
    t.tables.content k = s.tables.content k ∨
    ∃ p c, s.storeDecision p = .ok c ∧ c.key = k ∧ t.tables.content k = c := by
  cases h with
  | accepted h =>
    obtain ⟨-, -, ht, -⟩ | ⟨l, rfl⟩ | ⟨p, c, hok, rfl⟩ := h.store_cases
    · exact .inl (congrArg (Tables.content · k) ht)
    · exact .inl rfl
    · by_cases hk : c.key = k
      · refine .inr ⟨p, c, hok, hk, ?_⟩
        simp [State.conclude, State.respond, (s.tables.write_keeps _ c k).1, hk]
      · exact .inl (by simp [State.conclude, State.respond, (s.tables.write_keeps _ c k).1, hk])
  | refused => exact .inl (by simp [State.conclude])
  | service =>
    refine .inl ?_
    simp only [State.conclude, State.acceptService, State.modStore_tables, State.modRack_tables]
    split <;> rfl

/-- Settles O12: only an accepted STORE writes a working copy, and one of a protected recipe is not accepted. -/
theorem protectedRecipeKept : Obligations.ProtectedRecipeKept := by
  intro c s t i hprot hup hrst hdev hdown h
  have hc : ¬ Restarts c := by cases c <;> simp_all [Restarts]
  have hwork : ∀ u v : State, u.tables.content (.recipe i) = v.tables.content (.recipe i) →
      u.tables.recipes[i].work = v.tables.recipes[i].work := fun u v e => (Content.recipe.inj e).2
  refine hwork t s ?_
  cases exec_runs hc h with
  | quiet k => exact k.content _
  | @decided u v k d l =>
    rw [l.content]
    obtain e | ⟨p, content, hok, hkey, -⟩ := d.answers.content (.recipe i)
    · exact e.trans (k.content _)
    · obtain ⟨-, -, -, -, hopen, -⟩ := State.storeDecision_ok.1 hok
      obtain ⟨r, rfl⟩ : ∃ r, content = .recipe i r := by
        cases content <;> simp_all [Content.key]
      have hsame : u.tables.protection.work = s.tables.protection.work := Content.protection.inj (k.content .protection)
      rw [State.protectedStore, hsame, (Protection.covers_iff _ _).2 hprot] at hopen
      cases hopen

end Sys2Proof.Machine
end

section
/-! PROOFS. Four invariants about arms, start windows and transfers: a wanted response is HELD, set-points rest outside
RUNNING, contexts and start windows match the arm states (R14, R77, R80, R84). -/

namespace Sys2Proof.Machine

/-! ## The held response -/

/-- The invariant looks at the transfers, the transaction and the assembly alone. -/
theorem State.HeldMatches.congr {s t : State} (h : s.HeldMatches) (hrack : t.rack = s.rack)
    (htransfers : t.transfers = s.transfers) : t.HeldMatches := by
  unfold State.HeldMatches
  rwa [hrack, htransfers]

/-- A transfer is released: its response is sent if it was wanted, and there was none to send otherwise. -/
theorem State.HeldMatches.released {s t : State} {a : Fin 8} (h : s.HeldMatches)
    (htransfers : t.transfers = s.transfers.set a Transfer.released) (hassembly : t.rack.assembly = s.rack.assembly)
    (hsent : s.transfers[a].wanted = true → ∃ bytes n reset, t.rack.transaction = .sending bytes n reset)
    (hkept : s.transfers[a].wanted = false → t.rack.transaction = s.rack.transaction) : t.HeldMatches := by
  obtain ⟨hheld, hflight, hclosed⟩ := h
  have hread : ∀ b : Fin 8, t.transfers[b] = if a = b then Transfer.released else s.transfers[b] := by
    intro b
    rw [htransfers]
    split
    · next e => subst e; exact get_set_self _ _ _
    · next e => exact get_set_ne _ _ _ _ e
  cases hw : s.transfers[a].wanted with
  | true =>
    obtain ⟨bytes, n, reset, hsend⟩ := hsent hw
    have hown := (hheld a).1 hw
    have hnone : ∀ b : Fin 8, t.transfers[b].wanted = false := by
      intro b
      rw [hread]
      split
      · rfl
      · next e =>
        by_contra hb
        have := (hheld b).1 (by simpa using hb)
        exact e (Transaction.held.inj (hown.symm.trans this))
    refine ⟨fun b => ?_, fun b hb => absurd ((hnone b).symm.trans hb) (by decide),
      fun _ => hassembly.trans (hclosed (by simp [hown]))⟩
    rw [hnone b, hsend]
    exact ⟨nofun, nofun⟩
  | false =>
    have hsame := hkept hw
    refine ⟨fun b => ?_, fun b => ?_, fun hne => hassembly.trans (hclosed (hsame ▸ hne))⟩
    · rw [hread, hsame]
      split
      · next e =>
        subst e
        rw [← hheld a, hw]
        exact .rfl
      · exact hheld b
    · rw [hread]
      split
      · simp [Transfer.released]
      · exact hflight b

/-- The transaction after an upstream frame: HELD stays HELD, and nothing comes to be HELD (R15). -/
theorem Transaction.segment_next (t : Transaction) :
    (∀ a, t.segment.2.2.1 = .held a ↔ t = .held a) ∧ (t.segment.2.2.1 ≠ .none → t ≠ .none) := by
  cases t with
  | none => simp [Transaction.segment]
  | held => simp [Transaction.segment]
  | sending =>
    unfold Transaction.segment
    dsimp only
    split <;> simp

theorem Move.heldMatches {s t : State} (h : Move s t) (hs : s.HeldMatches) : t.HeldMatches := by
  have hfield : ∀ {u : State}, FieldSide s u → u.HeldMatches := fun k => hs.congr k.rack k.transfers
  have ⟨hheld, hflight, hclosed⟩ := hs
  cases h with
  | arm => exact hs
  | save a => exact hfield (.requestSave s a)
  | back a c => exact hfield (.returnPending s a c)
  | expire l => exact hfield (.expireWindow s l)
  | wait => exact hs
  | meter a p => exact hfield (.setMeter s a p _)
  | fresh => exact hs
  | trunk => exact hs
  | abandon a code =>
    obtain ⟨hw, e⟩ | ⟨hw, e⟩ := s.abandonTransfer_cases a code
    · exact hs.released (a := a) (by rw [e]; rfl) (by rw [e]; rfl) (fun _ => by rw [e]; exact ⟨_, _, _, rfl⟩)
        (fun k => absurd (hw.symm.trans k) (by decide))
    · exact hs.released (a := a) (by rw [e]; rfl) (by rw [e]; rfl) (fun k => absurd (hw.symm.trans k) (by decide)) (fun _ => by rw [e]; rfl)
  | @release a u hu =>
    obtain ⟨hw, e⟩ | ⟨hw, e⟩ := s.releaseReply_cases a u
    · exact hs.released (a := a) (by rw [e]; rfl) (by rw [e]; rfl) (fun _ => by rw [e]; exact ⟨_, _, _, rfl⟩)
        (fun k => absurd (hw.symm.trans (hu.trans k)) (by decide))
    · exact hs.released (a := a) (by rw [e]; rfl) (by rw [e]; rfl) (fun k => absurd (hw.symm.trans (hu.trans k)) (by decide))
        (fun _ => by rw [e]; rfl)
  | transfers hv =>
    refine ⟨fun a => ?_, fun a => ?_, hclosed⟩
    · rw [(hv a).1]; exact hheld a
    · rw [(hv a).1, (hv a).2]; exact hflight a
  | outside => exact hs
  | rack hr =>
    obtain ⟨htransaction, hassembly, -⟩ := hr
    refine ⟨fun a => by rw [htransaction]; exact hheld a, hflight, fun hne => ?_⟩
    rw [htransaction] at hne
    obtain e | e | e := hassembly
    · exact e
    · exact e.trans (hclosed hne)
    · exact absurd e hne
  | send =>
    obtain ⟨hsame, hnone⟩ := s.rack.transaction.segment_next
    exact ⟨fun a => (hheld a).trans (hsame a).symm, hflight, fun hne => hclosed (hnone hne)⟩
  | cut => exact ⟨fun a => by simp [State.cutLink, Transfer.unwanted], fun a => by simp [State.cutLink, Transfer.unwanted],
      fun _ => rfl⟩
  | saved b =>
    unfold State.completeSave
    split
    · exact hs.congr (by cases b <;> simp [State.finishSave]) (by cases b <;> simp [State.finishSave])
    · exact hs
  | committed b =>
    unfold State.completeCommit
    split
    · exact hs.congr (by simp [State.finishCommit]) (by simp [State.finishCommit])
    · exact hs

/-- A request is decided with no transaction and no assembly: its response is sent, or held for its transfer. -/
theorem Answers.heldMatches {s t : State} (h : Answers s t) (hfree : s.rack.transaction = .none)
    (hempty : s.rack.assembly = none) (hs : s.HeldMatches) : t.HeldMatches := by
  have hunwanted : ∀ a : Fin 8, s.transfers[a].wanted = false := fun a => by
    by_contra hw
    have := (hs.1 a).1 (Bool.eq_true_of_not_eq_false hw)
    rw [hfree] at this
    cases this
  have hsent : ∀ u : State, u.transfers = s.transfers → u.rack.assembly = none →
      (∃ bytes n reset, u.rack.transaction = .sending bytes n reset) → u.HeldMatches := by
    rintro u htransfers hassembly ⟨bytes, n, reset, hsend⟩
    refine ⟨fun a => ?_, fun a hw => ?_, fun _ => hassembly⟩
    · rw [htransfers, hunwanted, hsend]
      exact ⟨nofun, nofun⟩
    · rw [htransfers, hunwanted] at hw
      cases hw
  cases h with
  | accepted h =>
    obtain ⟨-, -, -, -, htransfers, hassembly⟩ | ⟨l, rfl⟩ | ⟨p, c, -, rfl⟩ := h.store_cases
    · exact hsent _ htransfers (hassembly.trans hempty) ⟨_, _, _, rfl⟩
    · exact hsent _ rfl hempty ⟨_, _, _, rfl⟩
    · exact hsent _ (by simp [State.conclude, State.respond])
        (by simp [State.conclude, State.respond, RackLink.fixResponse, hempty]) ⟨_, _, _, rfl⟩
  | refused code arm c prepare =>
    obtain ⟨a, e⟩ | e := s.refuse_cases code arm c
    · rw [e]; exact hsent _ rfl hempty ⟨_, _, _, rfl⟩
    · rw [e]; exact hsent _ rfl hempty ⟨_, _, _, rfl⟩
  | @service a p i write meterWrite hok q code prepare =>
    have hrack : ((s.acceptService a i write meterWrite q).conclude code prepare).rack =
        { s.rack with transaction := .held a } := by
      simp only [State.conclude, State.acceptService, State.modStore_rack, State.modRack_rack]
      split <;> rfl
    have htransfers : ((s.acceptService a i write meterWrite q).conclude code prepare).transfers =
        s.transfers.set a (Transfer.accepted i write q) := by
      simp only [State.conclude, State.acceptService, State.modStore_transfers, State.modRack_transfers]
      split <;> rfl
    unfold State.HeldMatches
    rw [hrack, htransfers]
    refine ⟨fun b => ?_, fun b => ?_, fun _ => hempty⟩ <;> by_cases hb : a = b
    · subst hb
      rw [get_set_self]
      exact ⟨fun _ => rfl, fun _ => rfl⟩
    · rw [get_set_ne _ _ _ _ hb, hunwanted b]
      exact ⟨nofun, fun e => absurd (Transaction.held.inj e) hb⟩
    · subst hb
      rw [get_set_self]
      exact fun _ => rfl
    · rw [get_set_ne _ _ _ _ hb, hunwanted b]
      exact nofun

/-- Settles O22: transfers, transaction and assembly move together. -/
theorem heldResponseKept : Obligations.HeldResponseKept := fun _ _ hs h =>
  step_keeps (P := State.HeldMatches) (fun _ _ k => k) (fun _ _ => Move.heldMatches)
    (fun _ _ d => d.answers.heldMatches d.free.1 d.free.2)
    (fun _ _ _ => by simp [State.HeldMatches, State.restart, Transfer.released, RackLink.afterReset]) h hs

/-! ## Set-points at rest -/

/-- A step changes arms by the moves of their blocks only. -/
theorem step_armsGo {s t : State} (h : step s = .next t) : ArmsGo s t := by
  unfold step at h
  split at h
  · cases h
    exact .refl s
  · exact ArmsGo.after (exec_armsGo h) rfl

namespace Arm.setpointsRest

theorem congr {x y : Arm} (h : x.setpointsRest) (hstate : y.state = x.state) (hwild : y.wildSet = x.wildSet)
    (hctrl : y.ratio.ctrlSet = x.ratio.ctrlSet) : y.setpointsRest := by
  unfold Arm.setpointsRest
  rwa [hstate, hwild, hctrl]

theorem ite {x y : Arm} {c : Prop} [Decidable c] (h : c → x.setpointsRest) (k : ¬c → y.setpointsRest) :
    (if c then x else y).setpointsRest := by
  split
  · next e => exact h e
  · next e => exact k e

theorem foldl {β : Type} (f : Arm → β → Arm) (hf : ∀ x k, x.setpointsRest → (f x k).setpointsRest) (l : List β) {x : Arm}
    (h : x.setpointsRest) : (l.foldl f x).setpointsRest := by
  induction l generalizing x with
  | nil => exact h
  | cons k l ih => exact ih (hf x k h)

theorem raiseCause {x : Arm} (h : x.setpointsRest) (c : EndCause) : (x.raiseCause c).setpointsRest := by
  obtain ⟨hflow, hclosing, hother⟩ := x.takes_raiseCause c
  by_cases hf : x.state.flowing
  · obtain ⟨-, -, hwild, hctrl, -⟩ := hflow hf
    exact fun _ => ⟨hwild, hctrl⟩
  · by_cases hk : x.state = .closing
    · rw [hclosing hk]
      exact .ite (fun _ => h) (fun _ => h)
    · rw [hother hf hk]
      exact h

theorem enterClosing (x : Arm) (c : EndCause) : (x.enterClosing c).setpointsRest := by
  have hclosed : ∀ y : Arm, y.wildSet = 0 → y.ratio.ctrlSet = 0 → (y.closeEntries (c == .normal)).setpointsRest := by
    intro y hwild hctrl
    rw [Arm.closeEntries_eq]
    exact fun _ => ⟨hwild, hctrl⟩
  unfold Arm.enterClosing
  exact .ite (fun _ => (hclosed _ rfl rfl).congr rfl rfl rfl) (fun _ => hclosed _ rfl rfl)

theorem endShot {x : Arm} (h : x.setpointsRest) (k : Nat) (e : AdditiveEntry) (cls : ShotClass) (m : Nat) :
    (x.endShot k e cls m).setpointsRest :=
  .ite (fun _ => .ite (fun _ => raiseCause (x := x.setEntry k _) h _) (fun _ => h)) (fun _ => h)

theorem ageShot {x : Arm} (h : x.setpointsRest) (k : Nat) : (x.ageShot k).setpointsRest := by
  unfold Arm.ageShot
  split
  · exact h
  · split
    · exact h
    · exact .ite (fun _ => h.endShot k _ _ _) (fun _ => h)

theorem crossPoint {x : Arm} (h : x.setpointsRest) (k : Nat) : (x.crossPoint k).setpointsRest := by
  unfold Arm.crossPoint
  split
  · exact h
  · exact .ite (fun _ => .ite (fun _ => h) (fun _ => h)) (fun _ => h)

theorem additivePass {x : Arm} (h : x.setpointsRest) : x.additivePass.setpointsRest :=
  foldl _ (fun _ k h => .ite (fun _ => (h.ageShot k).crossPoint k) (fun _ => h.ageShot k)) _ h

theorem replyEntry {x : Arm} (h : x.setpointsRest) (j : Fin 4) (st : InjectorStatus) (echo : Bool) (m k : Nat) :
    (Arm.replyEntry j st echo m x k).setpointsRest := by
  unfold Arm.replyEntry
  split
  · exact h
  · split
    · exact h
    · split
      · cases st with
        | done | noFlow => exact h.endShot k _ _ _
        | idle | busy => exact h
      · exact h

theorem injectorWord {x : Arm} (h : x.setpointsRest) (j : Fin 4) (st : InjectorStatus) (echo : Bool) (m : Nat) :
    (x.injectorWord j st echo m).setpointsRest :=
  foldl (x := x.markWord j st echo) _ (fun _ k h => h.replyEntry j st echo m k) _ h

theorem runningStep {x : Arm} (h : x.state = .running) : x.runningStep.setpointsRest := by
  unfold Arm.runningStep
  split
  · exact fun hne => absurd h hne
  · next c _ =>
    refine ite (fun hrun hne => absurd hrun hne) (fun hend => ?_)
    unfold Arm.evaluatePhase at hend ⊢
    dsimp only at hend ⊢
    split_ifs at hend ⊢
    · exact .enterClosing _ _
    · exact absurd h hend

theorem bandCheck {x : Arm} (h : x.setpointsRest) (c : Context) : (x.bandCheck c).setpointsRest :=
  .ite (fun _ => raiseCause (x := { x with ratio := { x.ratio with outCount := x.bandCount c } }) h _) (fun _ => h)

theorem ratioAct {x : Arm} (h : x.setpointsRest) (received : Bool) (q : Nat) : (x.ratioAct received q).setpointsRest := by
  unfold Arm.ratioAct
  split
  · exact ite (fun hr => bandCheck (x := x.ratioSetpoint _ q) (fun hne => absurd hr.2 hne) _) (fun _ => h)
  · have hrest : (if x.state = .running then { x with ratio := { x.ratio with ctrlSet := 0 } } else x).setpointsRest :=
      ite (fun hr hne => absurd hr hne) (fun _ => h)
    exact .ite (fun _ => hrest.raiseCause _) (fun _ => hrest)
  · exact h

end Arm.setpointsRest

theorem ArmMove.setpointsRest {x y : Arm} (h : ArmMove x y) (hx : x.setpointsRest) : y.setpointsRest := by
  have hzero : x.state ≠ .running → x.wildSet = 0 ∧ x.ratio.ctrlSet = 0 := hx
  cases h with
  | cause c => exact hx.raiseCause c
  | note | accrue | tick | zero | settleAge => exact hx
  | account p i => cases p <;> exact hx
  | word j st echo m => exact hx.injectorWord j st echo m
  | running h => exact .runningStep h
  | ratio received q => exact hx.ratioAct received q
  | band c => exact hx.bandCheck c
  | pass => exact hx.additivePass
  | age k => exact hx.ageShot k
  | hold => exact fun _ => ⟨rfl, rfl⟩
  | resume h => exact fun hne => absurd rfl hne
  | start n h => exact fun hne => absurd rfl hne
  | leak h =>
    unfold Arm.recordLeak Arm.addSecondary
    exact .ite (fun _ => hx) (fun _ => .ite (fun _ => hx) (fun _ => .ite (fun _ => hx) (fun _ => hx)))
  | authorize c e w k h => exact fun _ => ⟨(hzero (by simp [h])).1, rfl⟩
  | reset => exact fun _ => ⟨rfl, rfl⟩
  | fault h | held h | finalize a c r n h hc | withdraw h | pend h | unpend h | returned c h | clear h =>
    exact fun _ => hzero (by simp [h])

/-- Settles O47: each move of an arm's blocks keeps its set-points at rest. -/
theorem setpointsStayAtRest : Obligations.SetpointsStayAtRest :=
  fun _ _ hs h a => (step_armsGo h).keeps (fun _ _ m => m.setpointsRest) a (hs a)

/-! ## Contexts -/

theorem Arm.SameBatch.contextMatches {x y : Arm} (h : x.SameBatch y) (hx : x.contextMatches) : y.contextMatches := by
  obtain ⟨hctx, hcurrent, hmode, hentries⟩ := hx
  unfold Arm.contextMatches
  rw [h.isOpen, h.ctx, h.current, h.mode]
  refine ⟨hctx, hcurrent, hmode, fun hclosed => List.eq_nil_of_length_eq_zero ?_⟩
  rw [h.length, hentries hclosed]
  rfl

/-- An arm without an open batch holds nothing of one. -/
theorem Arm.contextMatches_closed {y : Arm} (hopen : y.isOpen = false) (hctx : y.ctx = none) (hcurrent : y.current = none)
    (hmode : y.ratio.mode = .none) (hentries : y.entries = []) : y.contextMatches := by
  simp [Arm.contextMatches, hopen, hctx, hcurrent, hmode, hentries]

/-- A batch that is open before and after a change of the arm state alone. -/
theorem Arm.contextMatches_open {x y : Arm} (hx : x.contextMatches) (hxo : x.isOpen = true) (hyo : y.isOpen = true)
    (hctx : y.ctx = x.ctx) (hcurrent : y.current.isSome = x.current.isSome) (hmode : y.ratio.mode = x.ratio.mode) :
    y.contextMatches := by
  obtain ⟨h1, h2, h3, -⟩ := hx
  simp only [hxo, true_iff] at h1 h2 h3
  simp [Arm.contextMatches, hyo, hctx, hcurrent, hmode, h1, h2, h3]

theorem Arm.finalState_isOpen (x : Arm) : x.finalState.isOpen = false := by
  unfold Arm.finalState
  split <;> rfl

theorem ArmMove.contextMatches {x y : Arm} (h : ArmMove x y) (hx : x.contextMatches) : y.contextMatches := by
  have hopen : ∀ {st : ArmState}, x.state = st → x.isOpen = st.isOpen := fun e => congrArg ArmState.isOpen e
  have hclosed : x.isOpen = false → x.ctx = none ∧ x.current = none ∧ x.ratio.mode = .none ∧ x.entries = [] := by
    obtain ⟨h1, h2, h3, h4⟩ := hx
    intro e
    simp only [e, Bool.false_eq_true, false_iff, Bool.not_eq_true, Option.isSome_eq_false_iff,
      Option.isNone_iff_eq_none, not_not] at h1 h2 h3
    exact ⟨h1, h2, h3, h4 e⟩
  cases h with
  | cause c => exact (Arm.SameBatch.raiseCause x c).contextMatches hx
  | note | accrue | tick | zero | settleAge => exact hx
  | account p i => cases p <;> exact hx
  | word j st echo m => exact (Arm.SameBatch.injectorWord x j st echo m).contextMatches hx
  | running h => exact (Arm.SameBatch.runningStep x h).contextMatches hx
  | ratio received q => exact (Arm.SameBatch.ratioAct x received q).contextMatches hx
  | band c => exact (Arm.SameBatch.bandCheck x c).contextMatches hx
  | pass => exact (Arm.SameBatch.additivePass x).contextMatches hx
  | age k => exact (Arm.SameBatch.ageShot x k).contextMatches hx
  | hold h => exact (Arm.SameBatch.enterHolding x h).contextMatches hx
  | resume h => exact (Arm.SameBatch.resumed x h).contextMatches hx
  | leak => exact (Arm.SameBatch.recordLeak x).contextMatches hx
  | held h | pend h | unpend h | returned c h => exact Arm.contextMatches_open hx (hopen h) rfl rfl rfl rfl
  | start n h =>
    exact Arm.contextMatches_open hx (h.elim hopen hopen) rfl rfl (by simp [Arm.enterRunning]) rfl
  | authorize c e w k h =>
    refine ⟨by simp [Arm.authorized, Arm.isOpen, ArmState.isOpen], by simp [Arm.authorized, Arm.isOpen, ArmState.isOpen],
      ⟨fun _ => ?_, fun _ => rfl⟩, nofun⟩
    simp only [Arm.authorized, RatioCtl.opened, RatioMode.ofFraction]
    split <;> simp
  | fault h | clear h =>
    obtain ⟨hctx, hcurrent, hmode, hentries⟩ := hclosed (hopen h)
    exact Arm.contextMatches_closed rfl hctx hcurrent hmode hentries
  | finalize => exact Arm.contextMatches_closed (Arm.finalState_isOpen x) rfl rfl rfl rfl
  | withdraw | reset => exact Arm.contextMatches_closed rfl rfl rfl rfl rfl

/-- Every step keeps the contexts matched: each move of an arm's blocks does. -/
theorem step_contextsMatch {s t : State} (hs : s.ContextsMatch) (h : step s = .next t) : t.ContextsMatch :=
  fun a => (step_armsGo h).keeps (fun _ _ m => m.contextMatches) a (hs a)

/-! ## Start windows -/

/-- The arm is START_PENDING with the lane in its snapshot (R83). -/
def Arm.PendingIn (x : Arm) (l : Fin 4) : Prop := x.state = .startPending ∧ ∃ c, x.ctx = some c ∧ c.settings.lane = l

theorem Arm.SameBatch.pendingIn {x y : Arm} (h : x.SameBatch y) (l : Fin 4) : y.PendingIn l ↔ x.PendingIn l := by
  unfold Arm.PendingIn
  rw [h.pending, h.ctx]

theorem Arm.not_pendingIn {x : Arm} (h : x.state ≠ .startPending) (l : Fin 4) : ¬ x.PendingIn l := fun k => h k.1

/-- An arm is pending in one lane at most. -/
theorem Arm.PendingIn.lane_eq {x : Arm} {l m : Fin 4} (h : x.PendingIn l) (k : x.PendingIn m) : l = m := by
  obtain ⟨-, c, hc, rfl⟩ := h
  obtain ⟨-, d, hd, rfl⟩ := k
  rw [Option.some.inj (hc.symm.trans hd)]

/-- The window of a lane agrees with the arms. -/
def State.LaneMatches (s : State) (l : Fin 4) : Prop :=
  (∀ a, a ∈ s.windows[l].pending ↔ (s.arm a).PendingIn l) ∧
  s.windows[l].pending.Nodup ∧ (s.windows[l].isOpen = true ↔ s.windows[l].pending ≠ [])

theorem State.windowsMatch_iff (s : State) : s.WindowsMatch ↔ ∀ l, s.LaneMatches l := .rfl

/-- A lane stays matched when its window and the arms pending in it stay. -/
theorem State.LaneMatches.congr {s t : State} {l : Fin 4} (h : s.LaneMatches l) (hw : t.windows[l] = s.windows[l])
    (harms : ∀ a, (t.arm a).PendingIn l ↔ (s.arm a).PendingIn l) : t.LaneMatches l := by
  obtain ⟨hmem, hrest⟩ := h
  unfold State.LaneMatches
  rw [hw]
  exact ⟨fun a => (hmem a).trans (harms a).symm, hrest⟩

theorem State.WindowsMatch.congr {s t : State} (h : s.WindowsMatch) (hw : t.windows = s.windows)
    (harms : ∀ a l, (t.arm a).PendingIn l ↔ (s.arm a).PendingIn l) : t.WindowsMatch :=
  fun l => State.LaneMatches.congr (h l) (by rw [hw]) (fun a => harms a l)

/-- A lane that nothing waits in, its window closed. -/
theorem State.laneMatches_closed {s : State} {l : Fin 4} (hw : s.windows[l] = StartWindow.closed)
    (harms : ∀ a, ¬ (s.arm a).PendingIn l) : s.LaneMatches l := by
  unfold State.LaneMatches
  rw [hw]
  exact ⟨fun a => by simp [StartWindow.closed, harms a], .nil, by simp [StartWindow.closed]⟩

/-- One arm changed between states that are both not START_PENDING, or outside its batch. -/
theorem State.WindowsMatch.modArm {s : State} (h : s.WindowsMatch) (a : Fin 8) (f : Arm → Arm)
    (hf : ∀ l, (f (s.arm a)).PendingIn l ↔ (s.arm a).PendingIn l) : (s.modArm a f).WindowsMatch := by
  refine h.congr rfl (fun b l => ?_)
  rw [State.arm_modArm]
  split
  · next e => subst e; exact hf l
  · exact .rfl

/-- An arm leaves its window and START_PENDING (R84, R85, R86). -/
theorem State.WindowsMatch.leave {s : State} (h : s.WindowsMatch) (a : Fin 8) (f : Arm → Arm)
    (hleft : (f (s.arm a)).state ≠ .startPending) : ((s.leaveWindow a).modArm a f).WindowsMatch := by
  have harm : ∀ b, ((s.leaveWindow a).modArm a f).arm b = if a = b then f (s.arm b) else s.arm b := fun b => by
    rw [State.arm_modArm, State.leaveWindow_arm]
  have hpending : ∀ b l, (((s.leaveWindow a).modArm a f).arm b).PendingIn l ↔ b ≠ a ∧ (s.arm b).PendingIn l := by
    intro b l
    rw [harm]
    split
    · next e => subst e; simp [Arm.not_pendingIn hleft]
    · next e => simp [Ne.symm e]
  intro l
  by_cases hl : ∃ c, (s.arm a).ctx = some c ∧ c.settings.lane = l
  · obtain ⟨c, hc, rfl⟩ := hl
    have hw : ((s.leaveWindow a).modArm a f).windows[c.settings.lane] = s.windows[c.settings.lane].without a := by
      simp only [State.leaveWindow, hc, State.modArm_windows, State.setWindow_windows]
      exact get_set_self _ _ _
    obtain ⟨hmem, hnodup, hopen⟩ := h c.settings.lane
    change State.LaneMatches _ _
    have hfilter : ∀ b, b ∈ s.windows[c.settings.lane].pending.filter (fun b => b ≠ a) ↔
        (((s.leaveWindow a).modArm a f).arm b).PendingIn c.settings.lane := by
      intro b
      rw [hpending, List.mem_filter, hmem]
      simp [Arm.PendingIn, and_comm]
    unfold StartWindow.without at hw
    dsimp only at hw
    split at hw
    · next e =>
      refine State.laneMatches_closed hw (fun b hb => ?_)
      have := (hfilter b).2 hb
      rw [e] at this
      exact absurd this List.not_mem_nil
    · next e =>
      unfold State.LaneMatches
      rw [hw]
      refine ⟨hfilter, hnodup.filter _, ⟨fun _ => e, fun _ => hopen.2 fun k => e ?_⟩⟩
      rw [k]
      rfl
  · have hw : ((s.leaveWindow a).modArm a f).windows[l] = s.windows[l] := by
      rw [State.modArm_windows]
      unfold State.leaveWindow
      split
      · rfl
      · next c hc => exact get_set_ne _ _ _ _ (fun e => hl ⟨c, hc, e⟩)
    refine State.LaneMatches.congr (h l) hw (fun b => (hpending b l).trans ⟨And.right, fun k => ⟨?_, k⟩⟩)
    rintro rfl
    exact hl k.2

/-- An arm that meets or fails the start conditions is no longer START_PENDING after the expiry of its window (R84). -/
theorem State.expirePending_cases (s : State) (a : Fin 8) :
    (∀ b, b ≠ a → (s.expirePending a).arm b = s.arm b) ∧ (∀ l, ¬ ((s.expirePending a).arm a).PendingIn l) ∧
    (s.expirePending a).windows = s.windows := by
  have hmod : ∀ f : Arm → Arm, (f (s.arm a)).state ≠ .startPending →
      (∀ b, b ≠ a → (s.modArm a f).arm b = s.arm b) ∧ (∀ l, ¬ ((s.modArm a f).arm a).PendingIn l) ∧
      (s.modArm a f).windows = s.windows := fun f hf =>
    ⟨fun b hb => s.arm_modArm_ne f (Ne.symm hb), fun l => by rw [State.arm_modArm_self]; exact Arm.not_pendingIn hf l, rfl⟩
  unfold State.expirePending
  split
  · split
    · next hctx => exact ⟨fun _ _ => rfl, fun l ⟨_, c, hc, _⟩ => by simp [hctx] at hc, rfl⟩
    · split
      · exact hmod _ (by simp [Arm.enterRunning])
      · exact hmod _ (by simp [Arm.returned])
  · next h => exact ⟨fun _ _ => rfl, fun l => Arm.not_pendingIn h l, rfl⟩

/-- After the expiry of a list of arms none of them is pending, and the others are as they were. -/
theorem State.expireAll_cases (pending : List (Fin 8)) (s : State) :
    (∀ b, b ∉ pending → (pending.foldl State.expirePending s).arm b = s.arm b) ∧
    (∀ b, (b ∈ pending ∨ ∀ l, ¬ (s.arm b).PendingIn l) → ∀ l, ¬ ((pending.foldl State.expirePending s).arm b).PendingIn l) ∧
    (pending.foldl State.expirePending s).windows = s.windows := by
  induction pending generalizing s with
  | nil => exact ⟨fun _ _ => rfl, fun b h => h.resolve_left List.not_mem_nil, rfl⟩
  | cons a rest ih =>
    obtain ⟨hother, hself, hwindows⟩ := s.expirePending_cases a
    obtain ⟨ihother, ihgone, ihwindows⟩ := ih (s.expirePending a)
    refine ⟨fun b hb => ?_, fun b hb => ihgone b ?_, ihwindows.trans hwindows⟩
    · rw [List.mem_cons, not_or] at hb
      exact (ihother b hb.2).trans (hother b hb.1)
    · by_cases e : b = a
      · subst e
        exact .inr hself
      · rw [hother b e]
        exact hb.imp_left (fun h => (List.mem_cons.1 h).resolve_left e)

/-- The window of a lane expires: its arms leave START_PENDING and it closes empty (R84). -/
theorem State.WindowsMatch.expire {s : State} (h : s.WindowsMatch) (l : Fin 4) : (s.expireWindow l).WindowsMatch := by
  obtain ⟨hother, hgone, hwindows⟩ := State.expireAll_cases s.windows[l].pending s
  have harm : ∀ b, (s.expireWindow l).arm b = ((s.windows[l].pending).foldl State.expirePending s).arm b := fun _ => rfl
  have hwin : (s.expireWindow l).windows = s.windows.set l StartWindow.closed := by
    unfold State.expireWindow
    rw [State.setWindow_windows, hwindows]
  intro m
  by_cases hm : l = m
  · subst hm
    refine State.laneMatches_closed (by rw [hwin]; exact get_set_self _ _ _) (fun b => ?_)
    rw [harm]
    by_cases hb : b ∈ s.windows[l].pending
    · exact hgone b (.inl hb) l
    · rw [hother b hb]
      exact fun k => hb (((h l).1 b).2 k)
  · refine State.LaneMatches.congr (h m) (by rw [hwin]; exact get_set_ne _ _ _ _ hm) (fun b => ?_)
    rw [harm]
    by_cases hb : b ∈ s.windows[l].pending
    · refine ⟨fun k => absurd k (hgone b (.inl hb) m), fun k => absurd ?_ hm⟩
      exact Arm.PendingIn.lane_eq (((h l).1 b).1 hb) k
    · rw [hother b hb]

/-- An AUTHORIZED arm joins the window of the lane in its snapshot (R83). -/
theorem State.WindowsMatch.join {s : State} (h : s.WindowsMatch) {a : Fin 8} {c : Context}
    (hstate : (s.arm a).state = .authorized) (hctx : (s.arm a).ctx = some c) :
    ((s.joinWindow a c.settings.lane).modArm a (fun x => { x with state := .startPending })).WindowsMatch := by
  have hnot : ∀ l : Fin 4, a ∉ s.windows[l].pending := fun l k => by
    have := (((h l).1 a).1 k).1
    rw [hstate] at this
    cases this
  generalize ht : (s.joinWindow a c.settings.lane).modArm a (fun x => { x with state := .startPending }) = t
  have hself : ∀ l, (t.arm a).PendingIn l ↔ c.settings.lane = l := by
    intro l
    rw [← ht, State.arm_modArm_self]
    exact ⟨fun ⟨_, d, hd, e⟩ => by rw [Option.some.inj (hctx.symm.trans hd)]; exact e, fun e => ⟨rfl, c, hctx, e⟩⟩
  have hother : ∀ b, b ≠ a → t.arm b = s.arm b := fun b hb => ht ▸ State.arm_modArm_ne _ _ (Ne.symm hb)
  have hwindows : t.windows = s.windows.set c.settings.lane
      { isOpen := true, remaining := s.config.startWindow, pending := s.windows[c.settings.lane].pending ++ [a] } := by
    subst ht
    simp only [State.joinWindow, State.modArm_windows, State.setWindow_windows, if_neg (hnot _)]
  intro l
  by_cases hl : c.settings.lane = l
  · subst hl
    obtain ⟨hmem, hnodup, -⟩ := h c.settings.lane
    change State.LaneMatches _ _
    unfold State.LaneMatches
    rw [hwindows, get_set_self]
    refine ⟨fun b => ?_, ?_, by simp⟩
    · rw [List.mem_append, List.mem_singleton, hmem]
      by_cases e : b = a
      · subst e
        simp [hself]
      · rw [hother b e]
        simp [e, Arm.PendingIn]
    · exact List.nodup_append.2 ⟨hnodup, List.nodup_singleton a, fun x hx y hy => by
        rw [List.mem_singleton.1 hy]
        exact fun e => hnot _ (e ▸ hx)⟩
  · refine State.LaneMatches.congr (h l) (by rw [hwindows]; exact get_set_ne _ _ _ _ hl) (fun b => ?_)
    by_cases e : b = a
    · subst e
      exact ⟨fun k => absurd ((hself l).1 k) hl, fun k => absurd (((h l).1 b).2 k) (hnot l)⟩
    · rw [hother b e]

theorem Move.windowsMatch {s t : State} (h : Move s t) (hs : s.WindowsMatch) : t.WindowsMatch := by
  have hkept : ∀ {u : State}, u.windows = s.windows → u.arms = s.arms → u.WindowsMatch := fun {u} hw ha =>
    hs.congr hw (fun a l => by unfold State.arm; rw [ha])
  cases h with
  | arm a h =>
    refine hs.modArm a (fun _ => _) (fun l => ?_)
    cases h with
    | keep h => exact h.pendingIn l
    | account p i h => cases p <;> exact .rfl
    | finalize _ c r n h hc =>
      refine ⟨fun k => absurd k (Arm.not_pendingIn ?_ l), fun k => absurd k (Arm.not_pendingIn (by simp [h]) l)⟩
      exact fun e => absurd (e ▸ Arm.finalState_isOpen (s.arm a) : ArmState.isOpen .startPending = false) (by decide)
  | save a => exact hkept (by unfold State.requestSave; split <;> simp) (by simp)
  | back a c h => exact hs.leave a _ (by simp [Arm.returned])
  | expire l => exact hs.expire l
  | wait l n =>
    intro m
    by_cases hm : l = m
    · subst hm
      have hw : (s.setWindow l { s.windows[l] with remaining := n }).windows[l] = { s.windows[l] with remaining := n } :=
        get_set_self _ _ _
      change State.LaneMatches _ _
      unfold State.LaneMatches
      rw [hw]
      exact hs l
    · exact State.LaneMatches.congr (hs m) (get_set_ne _ _ _ _ hm) (fun _ => .rfl)
  | meter a p => exact hkept (by simp) (by simp)
  | abandon a code =>
    obtain ⟨-, e⟩ | ⟨-, e⟩ := s.abandonTransfer_cases a code
    · rw [e]
      exact State.WindowsMatch.modArm (s := s.setTransfer a Transfer.released) hs a (fun x => x.note code) (fun l => .rfl)
    · rw [e]
      exact hs
  | release a => exact hkept (by unfold State.releaseReply; dsimp only; split <;> rfl) (by simp)
  | saved b => exact hkept (by unfold State.completeSave; split <;> cases b <;> simp [State.finishSave]) (by simp)
  | committed b => exact hkept (by unfold State.completeCommit; split <;> simp [State.finishCommit]) (by simp)
  | _ => exact hs

/-- START is accepted for an AUTHORIZED arm with a snapshot (R81). -/
theorem State.startDecision_ctx {s : State} {a : Fin 8} {flag : Nat} {c : Context} {join : Bool}
    (h : s.startDecision a flag = .ok (c, join)) : (s.arm a).ctx = some c := by
  unfold State.startDecision at h
  split at h
  · cases h
  · split_ifs at h
    split at h
    · cases h
    · next hc =>
      split at h
      · cases h
      · cases h
        exact hc

theorem Accepts.windowsMatch {s t : State} (h : Accepts s t) (hs : s.WindowsMatch) : t.WindowsMatch := by
  cases h with
  | clearSense arm =>
    unfold State.clearSense
    split
    · exact hs.modArm _ _ (fun _ => .rfl)
    · exact hs
  | @authorize a f i r h =>
    refine hs.modArm a _ (fun l => ⟨fun k => absurd k.1 (by simp [Arm.authorized]), fun k => absurd k.1 ?_⟩)
    simp [State.authorizeDecision_idle h]
  | @start a flag c join h =>
    have hstate := State.startDecision_authorized h
    unfold State.startArm
    split
    · exact hs.join hstate (State.startDecision_ctx h)
    · exact hs.modArm a _ (fun l => ⟨fun k => absurd k.1 (by simp [Arm.enterRunning]), fun k => absurd k.1 (by simp [hstate])⟩)
  | @cancel _ a h =>
    obtain ⟨hstate, rfl⟩ | ⟨-, rfl⟩ := State.cancelArm_cases h
    · exact hs.modArm a _ (fun l => ⟨fun k => absurd k.1 (by simp [Arm.withdrawn]), fun k => absurd k.1 (by simp [hstate])⟩)
    · exact hs.leave a _ (by simp)
  | @clearFault _ a h =>
    obtain ⟨hstate, rfl⟩ := State.clearArm_cases h
    exact hs.modArm a _ (fun l => ⟨fun k => absurd k.1 (by simp [Arm.faultCleared]), fun k => absurd k.1 (by simp [hstate])⟩)
  | store h => exact hs.congr (by simp) (fun a l => by unfold State.arm; simp)
  | _ => exact hs

theorem Answers.windowsMatch {s t : State} (h : Answers s t) (hs : s.WindowsMatch) : t.WindowsMatch := by
  cases h with
  | accepted h => exact h.windowsMatch hs
  | refused code arm c prepare =>
    exact hs.congr (s.refuse_windows code arm c) (fun a l => (s.refuse_sameBatch code arm c a).pendingIn l)
  | service =>
    refine hs.congr ?_ (fun a l => by unfold State.arm; simp [State.conclude])
    simp only [State.conclude, State.acceptService, State.modStore_windows, State.modRack_windows]
    split <;> rfl

/-- Every step keeps the start windows matched. -/
theorem step_windowsMatch {s t : State} (hs : s.WindowsMatch) (h : step s = .next t) : t.WindowsMatch :=
  step_keeps (P := State.WindowsMatch) (fun _ _ k => k) (fun _ _ => Move.windowsMatch)
    (fun _ _ d => d.answers.windowsMatch)
    (fun s powered _ l => State.laneMatches_closed (by simp [State.restart])
      (fun a => Arm.not_pendingIn (by simp [State.restart, State.arm, Arm.afterReset]) l)) h hs

/-- Settles O49: contexts by the moves of each arm, windows by the moves of the whole state. -/
theorem contextsStayMatched : Obligations.ContextsStayMatched :=
  ⟨fun _ _ => step_contextsMatch, fun _ _ => step_windowsMatch⟩

end Sys2Proof.Machine
end

section
/-! PROOFS. What a command leaves of the batch of an arm: the batch, an increment set added to it, its end, or a new one
(R41, R78, R80, R85, R99); and the batch totals that never decrease. -/

namespace Sys2Proof.Machine

/-- An arm keeps its context, its totals, its toggle, its last record and its entries, and stays open or not open. -/
structure Arm.Keeps (x y : Arm) : Prop where
  ctx : y.ctx = x.ctx
  wild : y.wild = x.wild
  ctrl : y.ctrl = x.ctrl
  toggle : y.toggle = x.toggle
  last : y.last = x.last
  length : y.entries.length = x.entries.length
  isOpen : y.isOpen = x.isOpen

namespace Arm.Keeps

theorem refl (x : Arm) : x.Keeps x := ⟨rfl, rfl, rfl, rfl, rfl, rfl, rfl⟩

theorem trans {x y z : Arm} (h : x.Keeps y) (k : y.Keeps z) : x.Keeps z :=
  ⟨k.ctx.trans h.ctx, k.wild.trans h.wild, k.ctrl.trans h.ctrl, k.toggle.trans h.toggle, k.last.trans h.last,
   k.length.trans h.length, k.isOpen.trans h.isOpen⟩

theorem of_sameBatch {x y : Arm} (h : x.SameBatch y) : x.Keeps y :=
  ⟨h.ctx, h.wild, h.ctrl, h.toggle, h.last, h.length, h.isOpen⟩

theorem of_eq {x y : Arm} (h : y = x) : x.Keeps y := h ▸ refl x

/-- A change of the arm's state alone, between two states that are both open or both not. -/
theorem ofState (x : Arm) (st : ArmState) (hopen : st.isOpen = x.isOpen) : x.Keeps { x with state := st } :=
  ⟨rfl, rfl, rfl, rfl, rfl, rfl, hopen⟩

theorem returned (x : Arm) (c : Sense) (h : x.state = .startPending) : x.Keeps (x.returned c) :=
  ⟨rfl, rfl, rfl, rfl, rfl, rfl, by simp [Arm.isOpen, Arm.returned, ArmState.isOpen, h]⟩

theorem enterRunning (x : Arm) (n : Nat) (h : x.isOpen = true) : x.Keeps (x.enterRunning n) :=
  ⟨rfl, rfl, rfl, rfl, rfl, rfl, by rw [h]; rfl⟩

end Arm.Keeps

/-- One arm changed within its batch: so is every arm. -/
theorem State.keeps_modArm (s : State) (a b : Fin 8) (f : Arm → Arm) (h : (s.arm a).Keeps (f (s.arm a))) :
    (s.arm b).Keeps ((s.modArm a f).arm b) := by
  rw [State.arm_modArm]
  split
  · next e => subst e; exact h
  · exact .refl _

theorem State.keeps_of_arms {s t : State} (h : t.arms = s.arms) (b : Fin 8) : (s.arm b).Keeps (t.arm b) :=
  .of_eq (by unfold State.arm; rw [h])

/-! ## Moves -/

/-- What a move leaves of the batch of an arm. -/
inductive BatchStep : Arm → Arm → Prop
  | keeps {x y : Arm} (h : x.Keeps y) : BatchStep x y
  | account (x : Arm) (p : StreamPos) (i : Increment) (h : x.isOpen = true) :
      BatchStep x (x.setAccount p ((x.account p).add i))
  | finalize (x : Arm) (a : Fin 8) (c : Context) (r : CurrentRecord) (n : Nat) (h : x.state = .closing)
      (hc : x.ctx = some c) : BatchStep x (x.finalized a c r n)

theorem State.keeps_expirePending (s : State) (a b : Fin 8) : (s.arm b).Keeps ((s.expirePending a).arm b) := by
  unfold State.expirePending
  split
  · next h =>
    split
    · exact .refl _
    · split
      · exact s.keeps_modArm a b _ (.enterRunning _ _ (by simp [Arm.isOpen, ArmState.isOpen, h]))
      · exact s.keeps_modArm a b _ (.returned _ _ h)
  · exact .refl _

theorem State.keeps_expireWindow (s : State) (l : Fin 4) (b : Fin 8) : (s.arm b).Keeps ((s.expireWindow l).arm b) := by
  have hfold : ∀ (pending : List (Fin 8)) (u : State), (u.arm b).Keeps ((pending.foldl State.expirePending u).arm b) := by
    intro pending
    induction pending with
    | nil => exact fun u => .refl _
    | cons a rest ih => exact fun u => (u.keeps_expirePending a b).trans (ih _)
  exact hfold s.windows[l].pending s

theorem Move.batchStep {s t : State} (h : Move s t) (b : Fin 8) : BatchStep (s.arm b) (t.arm b) := by
  have hkept : ∀ {u : State}, u.arms = s.arms → BatchStep (s.arm b) (u.arm b) := fun e => .keeps (s.keeps_of_arms e b)
  cases h with
  | @arm a y h =>
    by_cases e : a = b
    · subst e
      rw [State.arm_setArm_self]
      cases h with
      | keep h => exact .keeps (.of_sameBatch h)
      | account p i h => exact .account _ p i h
      | finalize _ c r n h hc => exact .finalize _ _ c r n h hc
    · rw [State.arm_setArm_ne _ _ e]
      exact .keeps (.refl _)
  | save a => exact hkept (by simp)
  | back a c h =>
    refine .keeps ?_
    have := (s.leaveWindow a).keeps_modArm a b (fun x => x.returned c) (.returned _ _ (by simpa using h))
    rwa [State.leaveWindow_arm] at this
  | expire l => exact .keeps (s.keeps_expireWindow l b)
  | meter a p => exact hkept (by simp)
  | abandon a code =>
    obtain ⟨-, e⟩ | ⟨-, e⟩ := s.abandonTransfer_cases a code
    · rw [e]
      exact .keeps ((s.setTransfer a Transfer.released).keeps_modArm a b (fun x => x.note code) (.of_sameBatch (.note _ code)))
    · rw [e]
      exact hkept rfl
  | release => exact hkept (by simp)
  | saved => exact hkept (by simp)
  | committed => exact hkept (by simp)
  | _ => exact hkept rfl

/-! ## Requests -/

/-- What a request leaves of the batch of an arm. -/
inductive BatchRequest (s : State) (b : Fin 8) : Arm → Prop
  | keeps {y : Arm} (h : (s.arm b).Keeps y) : BatchRequest s b y
  | opens {f : AuthorizeFields} {i : Fin 64} {r : Recipe} (h : s.authorizeDecision b f = .ok (i, r)) :
      BatchRequest s b ((s.arm b).authorized (s.contextFor b f i r) (s.armEntry b) (s.meter b .wild).factor
        (s.meter b .ctrl).factor)
  | withdraws (h : (s.arm b).isOpen = true) : BatchRequest s b (s.arm b).withdrawn

theorem Accepts.batchRequest {s t : State} (h : Accepts s t) (b : Fin 8) : BatchRequest s b (t.arm b) := by
  have hkept : ∀ {u : State}, u.arms = s.arms → BatchRequest s b (u.arm b) := fun e => .keeps (s.keeps_of_arms e b)
  have hopen : ∀ {a : Fin 8} {st : ArmState}, (s.arm a).state = st → (s.arm a).isOpen = st.isOpen :=
    fun e => congrArg ArmState.isOpen e
  cases h with
  | clearSense arm =>
    unfold State.clearSense
    split
    · exact .keeps (s.keeps_modArm _ b _ (.of_sameBatch (.note _ _)))
    · exact hkept rfl
  | @authorize a f i r h =>
    unfold State.authorizeArm
    rw [State.arm_modArm]
    split
    · next e => subst e; exact .opens h
    · exact .keeps (.refl _)
  | @start a flag c join h =>
    have ho := hopen (State.startDecision_authorized h)
    unfold State.startArm
    split
    · exact .keeps ((s.joinWindow a c.settings.lane).keeps_modArm a b _ (.ofState _ _ ho.symm))
    · exact .keeps (s.keeps_modArm a b _ (.enterRunning _ _ ho))
  | @cancel _ a h =>
    obtain ⟨hstate, rfl⟩ | ⟨hstate, rfl⟩ := State.cancelArm_cases h
    · rw [State.arm_modArm]
      split
      · next e => subst e; exact .withdraws (hopen hstate)
      · exact .keeps (.refl _)
    · have := (s.leaveWindow a).keeps_modArm a b (fun x => { x with state := .authorized })
        (.ofState _ _ (by rw [State.leaveWindow_arm]; exact (hopen hstate).symm))
      rw [State.leaveWindow_arm] at this
      exact .keeps this
  | @clearFault _ a h =>
    obtain ⟨hstate, rfl⟩ := State.clearArm_cases h
    exact .keeps (s.keeps_modArm a b _ ⟨rfl, rfl, rfl, rfl, rfl, rfl, (hopen hstate).symm⟩)
  | store h => exact hkept (by simp)
  | _ => exact hkept rfl

theorem Answers.batchRequest {s t : State} (h : Answers s t) (b : Fin 8) : BatchRequest s b (t.arm b) := by
  cases h with
  | accepted h => exact h.batchRequest b
  | refused code arm c prepare => exact .keeps (.of_sameBatch (s.refuse_sameBatch code arm c b))
  | service => exact .keeps (s.keeps_of_arms (by simp [State.conclude]) b)

/-! ## The totals of a batch -/

/-- The totals of both streams are at least those before. -/
def Arm.TotalsLe (x y : Arm) : Prop :=
  x.wild.gross ≤ y.wild.gross ∧ x.wild.net ≤ y.wild.net ∧ x.ctrl.gross ≤ y.ctrl.gross ∧ x.ctrl.net ≤ y.ctrl.net

theorem Arm.Keeps.totalsLe {x y : Arm} (h : x.Keeps y) : x.TotalsLe y := by
  unfold Arm.TotalsLe
  rw [h.wild, h.ctrl]
  exact ⟨le_rfl, le_rfl, le_rfl, le_rfl⟩

theorem Arm.TotalsLe.trans {x y z : Arm} (h : x.TotalsLe y) (k : y.TotalsLe z) : x.TotalsLe z := by
  obtain ⟨h1, h2, h3, h4⟩ := h
  obtain ⟨k1, k2, k3, k4⟩ := k
  exact ⟨h1.trans k1, h2.trans k2, h3.trans k3, h4.trans k4⟩

/-- Without a request an open batch goes on with totals that do not fall or ends with its toggle changed, and none
begins. -/
def Arm.GoesOn (x y : Arm) : Prop :=
  (x.isOpen = true ∧ y.isOpen = true ∧ y.toggle = x.toggle ∧ x.TotalsLe y) ∨
  (x.isOpen = true ∧ y.isOpen = false ∧ y.toggle = !x.toggle) ∨
  (x.isOpen = false ∧ y.isOpen = false ∧ y.toggle = x.toggle)

theorem Arm.Keeps.goesOn {x y : Arm} (h : x.Keeps y) : x.GoesOn y := by
  cases ho : x.isOpen with
  | true => exact .inl ⟨ho, h.isOpen.trans ho, h.toggle, h.totalsLe⟩
  | false => exact .inr (.inr ⟨ho, h.isOpen.trans ho, h.toggle⟩)

theorem Arm.GoesOn.trans {x y z : Arm} (h : x.GoesOn y) (k : y.GoesOn z) : x.GoesOn z := by
  obtain ⟨hx, hy, ht, hle⟩ | ⟨hx, hy, ht⟩ | ⟨hx, hy, ht⟩ := h <;>
    obtain ⟨ky, kz, kt, kle⟩ | ⟨ky, kz, kt⟩ | ⟨ky, kz, kt⟩ := k <;> try (rw [hy] at ky; cases ky)
  · exact .inl ⟨hx, kz, kt.trans ht, hle.trans kle⟩
  · exact .inr (.inl ⟨hx, kz, by rw [kt, ht]⟩)
  · exact .inr (.inl ⟨hx, kz, by rw [kt, ht]⟩)
  · exact .inr (.inr ⟨hx, kz, kt.trans ht⟩)

theorem BatchStep.goesOn {x y : Arm} (h : BatchStep x y) : x.GoesOn y := by
  cases h with
  | keeps h => exact h.goesOn
  | account p i h =>
    refine .inl ⟨h, ?_, ?_, ?_⟩
    · cases p <;> exact h
    · cases p <;> rfl
    · cases p
      · exact ⟨Nat.le_add_right _ _, Nat.le_add_right _ _, le_rfl, le_rfl⟩
      · exact ⟨le_rfl, le_rfl, Nat.le_add_right _ _, Nat.le_add_right _ _⟩
  | finalize a c r n h hc =>
    exact .inr (.inl ⟨by simp [Arm.isOpen, ArmState.isOpen, h], Arm.finalState_isOpen x, rfl⟩)

theorem Moves.goesOn {s t : State} (h : Moves s t) (b : Fin 8) : (s.arm b).GoesOn (t.arm b) :=
  h.keeps (P := fun u => (s.arm b).GoesOn (u.arm b)) (fun _ _ m k => k.trans (m.batchStep b).goesOn) (Arm.Keeps.refl _).goesOn

/-- A request keeps the toggle; a batch open before and after it is the same one. -/
theorem BatchRequest.toggle {s : State} {b : Fin 8} {y : Arm} (h : BatchRequest s b y) :
    y.toggle = (s.arm b).toggle ∧ ((s.arm b).isOpen = true → y.isOpen = true → (s.arm b).TotalsLe y) := by
  cases h with
  | keeps h => exact ⟨h.toggle, fun _ _ => h.totalsLe⟩
  | opens h =>
    refine ⟨rfl, fun ho => ?_⟩
    have hidle := State.authorizeDecision_idle h
    simp [Arm.isOpen, ArmState.isOpen, hidle] at ho
  | withdraws h => exact ⟨rfl, fun _ ho => absurd ho (by simp [Arm.isOpen, Arm.withdrawn, ArmState.isOpen])⟩

/-- A run with at most one request: a batch open before and after it with the same toggle is the same one. -/
theorem Runs.totalsLe {s t : State} (h : Runs s t) (b : Fin 8) (hs : (s.arm b).isOpen = true) (ht : (t.arm b).isOpen = true)
    (htoggle : (t.arm b).toggle = (s.arm b).toggle) : (s.arm b).TotalsLe (t.arm b) := by
  cases h with
  | quiet h =>
    obtain ⟨-, -, -, hle⟩ | ⟨-, hclosed, -⟩ | ⟨hclosed, -⟩ := h.goesOn b
    · exact hle
    · rw [hclosed] at ht; cases ht
    · rw [hclosed] at hs; cases hs
  | @decided u v h d k =>
    obtain ⟨hsame, hle⟩ := (d.answers.batchRequest b).toggle
    obtain ⟨hv, -, hvt, hvle⟩ | ⟨-, hclosed, -⟩ | ⟨-, hclosed, -⟩ := k.goesOn b
    · obtain ⟨-, hu, -, hule⟩ | ⟨-, -, hflip⟩ | ⟨hclosed, -⟩ := h.goesOn b
      · exact (hule.trans (hle hu hv)).trans hvle
      · rw [hvt, hsame, hflip] at htoggle
        simp at htoggle
      · rw [hclosed] at hs; cases hs
    · rw [hclosed] at ht; cases ht
    · rw [hclosed] at ht; cases ht

/-- Settles O48: between commands only an increment set, the end of the batch or the one request can change its totals. -/
theorem batchTotalsNeverDecrease : Obligations.BatchTotalsNeverDecrease := by
  intro s t a h hs ht htoggle
  unfold step at h
  split at h
  · cases h
    exact ⟨le_rfl, le_rfl, le_rfl, le_rfl⟩
  · next c rest _ =>
    by_cases hc : Restarts c
    · obtain rfl | ⟨powered, rfl⟩ := exec_restarts hc h
      · exact ⟨le_rfl, le_rfl, le_rfl, le_rfl⟩
      · exact absurd ht (by simp [State.restart, State.arm, Arm.afterReset, Arm.isOpen, ArmState.isOpen])
    · exact (exec_runs hc h).totalsLe a hs ht htoggle

end Sys2Proof.Machine
end

section
/-! PROOFS. Counters, residues, totalizers, tables and records stay in range through every move, request and reset (R3,
R28, R36, R56, R59, R62 to R68, R137, R147, R157). -/

namespace Sys2Proof.Machine

/-! ## Moves -/

theorem Move.trunk_rack_cases {s t : State} (h : Move s t) :
    (t.trunk = s.trunk ∨ s.trunk.Counts t.trunk) ∧ (s.rack.errors ≤ 255 → t.rack.errors ≤ 255) := by
  have hfield : ∀ {u : State}, FieldSide s u →
      (u.trunk = s.trunk ∨ s.trunk.Counts u.trunk) ∧ (s.rack.errors ≤ 255 → u.rack.errors ≤ 255) :=
    fun k => ⟨.inl k.trunk, fun h => k.rack ▸ h⟩
  cases h with
  | save a => exact hfield (.requestSave s a)
  | back a c => exact hfield (.returnPending s a c)
  | expire l => exact hfield (.expireWindow s l)
  | meter a p => exact hfield (.setMeter s a p _)
  | trunk h => exact ⟨.inr h, id⟩
  | abandon a code => obtain ⟨-, e⟩ | ⟨-, e⟩ := s.abandonTransfer_cases a code <;> rw [e] <;> exact ⟨.inl rfl, id⟩
  | @release a u => obtain ⟨-, e⟩ | ⟨-, e⟩ := s.releaseReply_cases a u <;> rw [e] <;> exact ⟨.inl rfl, id⟩
  | rack h => exact ⟨.inl rfl, h.2.2⟩
  | cut => exact ⟨.inl rfl, fun _ => Nat.zero_le _⟩
  | saved b =>
    unfold State.completeSave
    split
    · exact ⟨.inl (by cases b <;> simp [State.finishSave]), fun h => by cases b <;> simpa [State.finishSave] using h⟩
    · exact ⟨.inl rfl, id⟩
  | committed b =>
    unfold State.completeCommit
    split
    · exact ⟨.inl (by simp [State.finishCommit]), fun h => by simpa [State.finishCommit] using h⟩
    · exact ⟨.inl rfl, id⟩
  | _ => exact ⟨.inl rfl, id⟩

/-- The two properties of a meter that its moves keep. -/
def Meter.Good (k10 : Nat) (m : Meter) : Prop := m.residuesBelow k10 ∧ m.totals.inRange

/-- Every meter has its residues and its totalizers in range. -/
def State.MetersGood (s : State) : Prop := ∀ a p, (s.meter a p).Good ((s.armEntry a).k10 p)

theorem State.armEntry_of_content {s t : State} (a : Fin 8)
    (h : t.tables.content (.armEntry a) = s.tables.content (.armEntry a)) : t.armEntry a = s.armEntry a :=
  (Content.armEntry.inj h).2

theorem State.meter_of_meters {s t : State} (h : t.meters = s.meters) (a : Fin 8) (p : StreamPos) :
    t.meter a p = s.meter a p := by
  cases p <;> simp only [State.meter, h]

theorem State.expirePending_meters_store (s : State) (a : Fin 8) :
    (s.expirePending a).meters = s.meters ∧ (s.expirePending a).store = s.store := by
  unfold State.expirePending
  split
  · split
    · exact ⟨rfl, rfl⟩
    · split <;> exact ⟨rfl, rfl⟩
  · exact ⟨rfl, rfl⟩

theorem State.expireWindow_meters_store (s : State) (l : Fin 4) :
    (s.expireWindow l).meters = s.meters ∧ (s.expireWindow l).store = s.store := by
  have hfold : ∀ (pending : List (Fin 8)) (u : State), (pending.foldl State.expirePending u).meters = u.meters ∧
      (pending.foldl State.expirePending u).store = u.store := by
    intro pending
    induction pending with
    | nil => exact fun u => ⟨rfl, rfl⟩
    | cons a rest ih =>
      intro u
      obtain ⟨hm, hst⟩ := u.expirePending_meters_store a
      exact ⟨(ih _).1.trans hm, (ih _).2.trans hst⟩
  exact hfold _ s

@[simp] theorem State.requestSave_meters (s : State) (a : Fin 8) : (s.requestSave a).meters = s.meters := by
  unfold State.requestSave
  split <;> simp

/-- Meters change by their own move, or by the samples taken away at an emission. -/
theorem Move.meters_cases {s t : State} (h : Move s t) :
    t.meters = s.meters ∨ t = s.freshSamples ∨
    ∃ a p m, (s.meter a p).Runs ((s.armEntry a).k10 p) m ∧ t = s.setMeter a p m := by
  cases h with
  | save a => exact .inl (by simp)
  | back a c => exact .inl (by simp [State.returnPending])
  | expire l => exact .inl (s.expireWindow_meters_store l).1
  | meter a p h => exact .inr (.inr ⟨a, p, _, h, rfl⟩)
  | fresh => exact .inr (.inl rfl)
  | abandon a code => obtain ⟨-, e⟩ | ⟨-, e⟩ := s.abandonTransfer_cases a code <;> rw [e] <;> exact .inl rfl
  | release => exact .inl (Sys2Proof.Machine.State.releaseReply_meters _ _ _)
  | saved b => exact .inl (by unfold State.completeSave; split <;> cases b <;> simp [State.finishSave])
  | committed b => exact .inl (by unfold State.completeCommit; split <;> simp [State.finishCommit])
  | _ => exact .inl rfl

theorem Move.metersGood {s t : State} (h : Move s t) (hs : s.MetersGood) : t.MetersGood := by
  intro a p
  rw [State.armEntry_of_content a (h.content (.armEntry a))]
  obtain e | rfl | ⟨b, q, m, hruns, rfl⟩ := h.meters_cases
  · rw [State.meter_of_meters e]
    exact hs a p
  · have := hs a p
    cases p <;> simpa [State.meter, State.freshSamples, Meter.Good, Meter.residuesBelow] using this
  · rw [State.meter_setMeter]
    split
    · next e =>
      obtain ⟨rfl, rfl⟩ := e
      exact ⟨hruns.1 (hs b q).1, hruns.2 (hs b q).2⟩
    · exact hs a p

/-! ### Saved totalizers -/

/-- Every saved copy and the save under way are in range (R56, R143). -/
def State.SavesGood (s : State) : Prop :=
  (∀ (a : Fin 8) (c : Fin 2) (i : SaveImage), s.nv.saves[a].get c = .holds i → i.inRange) ∧
  ∀ (a : Fin 8) (c : Fin 2) (i : SaveImage), s.store.underWay = some (.save a c i) → i.inRange

/-- A save that begins takes the totalizers of its meters. -/
theorem State.beginOp_inRange {s : State} (h : s.MetersGood) {op : QueuedOp} {a : Fin 8} {c : Fin 2} {i : SaveImage}
    (e : s.beginOp op = .save a c i) : i.inRange := by
  cases op with
  | commit => cases e
  | save b =>
    cases e
    exact ⟨(h a .wild).2, (h a .ctrl).2⟩

theorem State.MetersGood.congr {s t : State} (h : s.MetersGood) (hm : t.meters = s.meters)
    (ht : ∀ a, t.armEntry a = s.armEntry a) : t.MetersGood := fun a p => by
  rw [State.meter_of_meters hm, ht]
  exact h a p

theorem State.joinQueue_savesGood {s : State} (h : s.SavesGood) (hm : s.MetersGood) (op : QueuedOp) :
    (s.joinQueue op).SavesGood := by
  obtain ⟨hcopies, hrunning⟩ := h
  refine ⟨by simpa using hcopies, fun a c i e => ?_⟩
  by_cases hu : s.store.underWay = none
  · rw [(s.joinQueue_eq op).1 hu] at e
    exact State.beginOp_inRange hm (Option.some.inj e)
  · rw [(s.joinQueue_eq op).2 hu] at e
    exact hrunning a c i e

theorem State.beginNext_savesGood {s : State}
    (hcopies : ∀ (a : Fin 8) (c : Fin 2) (i : SaveImage), s.nv.saves[a].get c = .holds i → i.inRange)
    (hm : s.MetersGood) : s.beginNext.SavesGood := by
  refine ⟨by simpa using hcopies, fun a c i e => ?_⟩
  rw [State.beginNext_eq] at e
  dsimp only at e
  split at e
  · cases e
  · exact State.beginOp_inRange hm (Option.some.inj e)

/-- A copy written with an image in range, or left failing. -/
theorem Nonvolatile.putSave_inRange {n : Nonvolatile}
    (h : ∀ (a : Fin 8) (c : Fin 2) (i : SaveImage), n.saves[a].get c = .holds i → i.inRange) (a : Fin 8) (c : Fin 2)
    (x : SaveCopy) (hx : ∀ i, x = .holds i → i.inRange) (b : Fin 8) (d : Fin 2) (i : SaveImage)
    (e : (n.putSave a c x).saves[b].get d = .holds i) : i.inRange := by
  rw [Nonvolatile.saves_putSave] at e
  split at e
  · exact hx i e
  · exact h b d i e

theorem Move.savesGood {s t : State} (h : Move s t) (hm : s.MetersGood) (hs : s.SavesGood) : t.SavesGood := by
  have hkept : ∀ {u : State}, u.nv = s.nv → u.store.underWay = s.store.underWay → u.SavesGood := fun {u} hn hu => by
    unfold State.SavesGood
    rwa [hn, hu]
  cases h with
  | save a =>
    unfold State.requestSave
    split
    · exact hs
    · exact State.joinQueue_savesGood hs hm _
  | back a c => exact hkept (by simp [State.returnPending]) (by simp [State.returnPending])
  | expire l => exact hkept (FieldSide.expireWindow s l).nv (by rw [(s.expireWindow_meters_store l).2])
  | meter a p => exact hkept (by simp) (by simp)
  | abandon a code => obtain ⟨-, e⟩ | ⟨-, e⟩ := s.abandonTransfer_cases a code <;> rw [e] <;> exact hs
  | @release a u => obtain ⟨-, e⟩ | ⟨-, e⟩ := s.releaseReply_cases a u <;> rw [e] <;> exact hs
  | saved b =>
    unfold State.completeSave
    split
    · next a c image hu =>
      have himage := hs.2 a c image hu
      cases b with
      | true =>
        exact State.beginNext_savesGood
          (Nonvolatile.putSave_inRange hs.1 a c (.holds image) (fun i e => SaveCopy.holds.inj e ▸ himage)) hm
      | false => exact State.beginNext_savesGood (Nonvolatile.putSave_inRange hs.1 a c .failing nofun) hm
    · exact hs
  | committed b =>
    unfold State.completeCommit
    split
    · next content _ =>
      refine State.beginNext_savesGood hs.1 (State.MetersGood.congr hm rfl fun a => ?_)
      exact State.armEntry_of_content a (s.tables.setInvalid_keeps (!b) _ (.armEntry a)).1
    · exact hs
  | _ => exact hs

/-! ### Batches and records -/

/-- The recipe a batch copied, its entries and the last record are in range (R62, R63, R137). -/
def Arm.Fits (x : Arm) : Prop :=
  (∀ c : Context, x.ctx = some c → c.recipe.InRange) ∧ x.entries.length ≤ 4 ∧ ∀ r : Record, x.last = some r → r.fits

theorem Arm.Keeps.fits {x y : Arm} (h : x.Keeps y) (hx : x.Fits) : y.Fits := by
  unfold Arm.Fits
  rwa [h.ctx, h.length, h.last]

theorem BatchStep.fits {x y : Arm} (h : BatchStep x y) (hx : x.Fits) : y.Fits := by
  cases h with
  | keeps h => exact h.fits hx
  | account p i h => cases p <;> exact hx
  | finalize a c r n h hc =>
    obtain ⟨hrecipe, hentries, -⟩ := hx
    refine ⟨nofun, Nat.zero_le _, fun rec e => ?_⟩
    cases e
    exact ⟨(hrecipe c hc).1.1, by simpa [Arm.completeRecord] using hentries⟩

/-! ## Requests -/

/-- Every working copy is in range. -/
def State.ContentsGood (s : State) : Prop := ∀ k, (s.tables.content k).InRange

theorem decodeContent_inRange {p : List Byte} {c : Content} (h : decodeContent p = some c) : c.InRange := by
  unfold decodeContent at h
  split at h
  · split at h <;> cases h
    rwa [Content.inRange_iff]
  · cases h

theorem Answers.contentsGood {s t : State} (h : Answers s t) (hs : s.ContentsGood) : t.ContentsGood := by
  intro k
  obtain e | ⟨p, c, hok, -, e⟩ := h.content k
  · rw [e]; exact hs k
  · rw [e]; exact decodeContent_inRange (State.storeDecision_ok.1 hok).2.2.1

/-- AUTHORIZE is accepted exactly when none of its refusals applies, for the recipe of the slot its reference names
(R72 to R75, R80). -/
theorem State.authorizeDecision_ok {s : State} {a : Fin 8} {f : AuthorizeFields} {i : Fin 64} {r : Recipe} :
    s.authorizeDecision a f = .ok (i, r) ↔
      (s.arm a).state = .idle ∧ s.trunk.test.state ≠ .running ∧ (s.armEntry a).enabled = true ∧ f.form ≤ 1 ∧
      f.slot = some i ∧ s.tables.recipes[i].work = some r ∧ inRange 50 40000 f.preset = true ∧ f.basis ≤ 1 ∧
      s.recipeRefusal a r = none := by
  unfold State.authorizeDecision
  constructor
  · intro h
    by_cases h1 : (s.arm a).state ≠ .idle
    · rw [if_pos h1] at h; cases h
    by_cases h2 : s.trunk.test.state = .running
    · rw [if_neg h1, if_pos h2] at h; cases h
    by_cases h3 : (s.armEntry a).enabled = false
    · rw [if_neg h1, if_neg h2, if_pos h3] at h; cases h
    by_cases h4 : 1 < f.form
    · rw [if_neg h1, if_neg h2, if_neg h3, if_pos h4] at h; cases h
    rw [if_neg h1, if_neg h2, if_neg h3, if_neg h4] at h
    split at h
    · cases h
    · next hslot =>
      split at h
      · cases h
      · next hwork =>
        split at h
        · cases h
        · next h5 =>
          split at h
          · cases h
          · next h6 =>
            split at h
            · cases h
            · next h7 =>
              cases h
              exact ⟨not_not.1 h1, h2, by simpa using h3, by omega, hslot, hwork, by simpa using h5, by omega, h7⟩
  · rintro ⟨h1, h2, h3, h4, hslot, hwork, h5, h6, h7⟩
    rw [if_neg (not_not.2 h1), if_neg h2, if_neg (by simp [h3]), if_neg (by omega), hslot]
    dsimp only
    rw [hwork]
    dsimp only
    rw [if_neg (by simp [h5]), if_neg (by omega), h7]

theorem BatchRequest.fits {s : State} {b : Fin 8} {y : Arm} (h : BatchRequest s b y) (hc : s.ContentsGood)
    (hs : (s.arm b).Fits) : y.Fits := by
  cases h with
  | keeps h => exact h.fits hs
  | @opens f i r h =>
    obtain ⟨-, -, -, -, -, hwork, -⟩ := State.authorizeDecision_ok.1 h
    have hrecipe : r.InRange := by
      have := hc (.recipe i)
      rwa [Tables.content, hwork] at this
    obtain ⟨-, -, hlast⟩ := hs
    refine ⟨fun c e => by cases e; exact hrecipe, ?_, hlast⟩
    obtain ⟨-, -, -, -, -, -, -, -, -, hlength, -⟩ := hrecipe
    simpa [Arm.authorized, State.contextFor] using hlength
  | withdraws h => exact ⟨nofun, Nat.zero_le _, hs.2.2⟩

theorem satSucc_bound {ceiling n m : Nat} (h : m = n ∨ m = satSucc ceiling n) (hn : n ≤ ceiling) : m ≤ ceiling := by
  obtain rfl | rfl := h
  · exact hn
  · exact satSucc_le _ _

theorem State.testRefusal_none {s : State} {n : Nat} (h : s.testRefusal n = none) : 1 ≤ n ∧ n ≤ 60000 := by
  unfold State.testRefusal at h
  split_ifs at h with _ _ _ hrange
  rw [← inRange_iff_between]
  simpa using hrange

/-- The trunk and the error counter of the rack link are in range. -/
def State.LinksGood (s : State) : Prop :=
  s.rack.errors ≤ 255 ∧ s.trunk.crcErrors ≤ 255 ∧ s.trunk.staleErrors ≤ 255 ∧ s.trunk.test.errors ≤ 65535 ∧
  s.trunk.test.framesRun + s.trunk.test.remaining ≤ 60000

theorem Accepts.linksGood {s t : State} (h : Accepts s t) (hs : s.LinksGood) : t.LinksGood := by
  cases h with
  | clearSense arm => unfold State.clearSense; split <;> exact hs
  | start h => unfold State.startArm; split <;> exact hs
  | cancel h => obtain ⟨-, rfl⟩ | ⟨-, rfl⟩ := State.cancelArm_cases h <;> simpa [State.LinksGood] using hs
  | clearFault h => obtain ⟨-, rfl⟩ := State.clearArm_cases h; exact hs
  | counters =>
    obtain ⟨-, -, -, -, hframes⟩ := hs
    refine ⟨Nat.zero_le _, Nat.zero_le _, Nat.zero_le _, ?_, ?_⟩ <;>
      simp only [State.clearCounters, State.modTrunk_trunk, EchoTest.afterRead, State.modRack_trunk]
    · split <;> exact Nat.zero_le _
    · split
      · exact le_trans (by simp) hframes
      all_goals exact hframes
  | test h =>
    obtain ⟨hrack, hcrc, hstale, -, -⟩ := hs
    have := (State.testRefusal_none h).2
    exact ⟨hrack, hcrc, hstale, Nat.zero_le _, by simpa [State.startTest] using this⟩
  | store h => simpa [State.LinksGood] using hs
  | _ => exact hs

theorem Answers.linksGood {s t : State} (h : Answers s t) (hs : s.LinksGood) : t.LinksGood := by
  cases h with
  | accepted h => exact h.linksGood hs
  | refused code arm c prepare => obtain ⟨a, e⟩ | e := s.refuse_cases code arm c <;> rw [e] <;> exact hs
  | service =>
    unfold State.LinksGood
    simp only [State.conclude, State.acceptService, State.modStore_rack, State.modStore_trunk, State.modRack_rack,
      State.modRack_trunk]
    split <;> exact hs

/-- A STORE of an arm entry clears the pulse residue of a meter whose K10 it changes (R58). -/
theorem Meter.rebased_good {m : Meter} {old new : Nat} (h : m.Good old) (hpos : 0 < new) : (m.rebased old new).Good new := by
  unfold Meter.rebased
  split
  · next e => exact e ▸ h
  · exact ⟨⟨hpos, h.1.2⟩, h.2⟩

@[simp] theorem State.acceptStore_meters (s : State) (c : Content) : (s.acceptStore c).meters = (s.rebaseMeters c).meters := by
  unfold State.acceptStore State.queueCommit State.writeWorking
  dsimp only
  split_ifs <;> simp

theorem State.writeWorking_metersGood {s : State} {c : Content} (hs : s.MetersGood) (hc : c.InRange) :
    (s.writeWorking c).MetersGood := by
  have hmeters : (s.writeWorking c).meters = (s.rebaseMeters c).meters := by
    unfold State.writeWorking
    dsimp only
    split <;> rfl
  intro a p
  rw [State.meter_of_meters hmeters]
  by_cases hk : c.key = .armEntry a
  · obtain ⟨e, rfl⟩ : ∃ e, c = .armEntry a e := by cases c <;> simp_all [Content.key]
    have hentry : (s.writeWorking (.armEntry a e)).armEntry a = e := by
      simp [State.armEntry, Tables.write, Entry.stored]
    rw [hentry]
    obtain ⟨⟨hwild, -⟩, ⟨hctrl, -⟩, -⟩ : e.InRange := hc
    cases p with
    | wild =>
      have : ((s.rebaseMeters (.armEntry a e)).meter a .wild) =
          (s.meter a .wild).rebased (s.armEntry a).wildK10 e.wildK10 := by
        simp [State.rebaseMeters, State.modMeter, State.meter_setMeter]
      rw [this]
      exact Meter.rebased_good (hs a .wild) (by simp [ArmEntry.k10]; omega)
    | ctrl =>
      have : ((s.rebaseMeters (.armEntry a e)).meter a .ctrl) =
          (s.meter a .ctrl).rebased (s.armEntry a).ctrlK10 e.ctrlK10 := by
        simp [State.rebaseMeters, State.modMeter, State.meter_setMeter]
      rw [this]
      exact Meter.rebased_good (hs a .ctrl) (by simp [ArmEntry.k10]; omega)
  · have hentry : (s.writeWorking c).armEntry a = s.armEntry a := by
      refine State.armEntry_of_content a ?_
      rw [State.writeWorking_tables, (s.tables.write_keeps _ c _).1, if_neg hk]
    have hmeter : (s.rebaseMeters c).meter a p = s.meter a p := by
      cases c with
      | armEntry b e =>
        have hb : b ≠ a := fun h => hk (by rw [h]; rfl)
        simp [State.rebaseMeters, State.modMeter, State.meter_setMeter, hb]
      | _ => rfl
    rw [hentry, hmeter]
    exact hs a p

theorem State.SavesGood.congr {s t : State} (h : s.SavesGood) (hsaves : t.nv.saves = s.nv.saves)
    (hu : t.store.underWay = s.store.underWay) : t.SavesGood := by
  unfold State.SavesGood
  rwa [hsaves, hu]

theorem State.acceptStore_good {s : State} {c : Content} (hm : s.MetersGood) (hs : s.SavesGood) (hc : c.InRange) :
    (s.acceptStore c).MetersGood ∧ (s.acceptStore c).SavesGood := by
  have hwritten := State.writeWorking_metersGood hm hc
  have hsaved : (s.writeWorking c).SavesGood := hs.congr (by rw [State.writeWorking_nv]; split <;> rfl) (by simp)
  unfold State.acceptStore
  split
  · unfold State.queueCommit
    generalize hb : (s.writeWorking c).modStore (fun k => { k with status := .busy }) = u
    have hbusy : u.MetersGood := hwritten.congr (by rw [← hb]; rfl) (fun a => by rw [← hb]; rfl)
    exact ⟨hbusy.congr (State.joinQueue_meters u _) (fun a => by unfold State.armEntry; rw [State.joinQueue_tables]),
      State.joinQueue_savesGood (hsaved.congr (by rw [← hb]; rfl) (by rw [← hb]; rfl)) hbusy _⟩
  · exact ⟨hwritten, hsaved⟩

theorem Answers.metersGood {s t : State} (h : Answers s t) (hm : s.MetersGood) (hs : s.SavesGood) :
    t.MetersGood ∧ t.SavesGood := by
  have hkept : ∀ {u : State}, u.meters = s.meters → u.tables = s.tables → u.nv.saves = s.nv.saves →
      u.store.underWay = s.store.underWay → u.MetersGood ∧ u.SavesGood := fun {u} h1 h2 h3 h4 =>
    ⟨hm.congr h1 (fun a => by unfold State.armEntry; rw [h2]), hs.congr h3 h4⟩
  cases h with
  | accepted h =>
    obtain ⟨hstore, hnv, htables, hmeters, -⟩ | ⟨l, rfl⟩ | ⟨p, c, hok, rfl⟩ := h.store_cases
    · exact hkept hmeters htables (Eq.trans rfl (congrArg Nonvolatile.saves hnv))
        (by rw [← hstore]; rfl)
    · exact ⟨hm, hs⟩
    · exact State.acceptStore_good hm hs (decodeContent_inRange (State.storeDecision_ok.1 hok).2.2.1)
  | refused => refine hkept ?_ ?_ ?_ ?_ <;> simp [State.conclude]
  | service =>
    refine hkept ?_ ?_ ?_ ?_ <;> simp only [State.conclude, State.acceptService, State.modStore_meters,
      State.modStore_tables, State.modStore_nv, State.modStore_store, State.modRack_meters, State.modRack_tables,
      State.modRack_nv, State.modRack_store] <;> split <;> rfl

/-! ## Resets -/

/-- What an entry loads as is content of that entry in range (R147). -/
theorem NvEntry.loaded_stored {e : NvEntry} {k : EntryKey} {c : Content} (h : e.loaded k = .stored c) :
    c.InRange ∧ c.key = k := by
  unfold NvEntry.loaded unsealContent at h
  split at h
  · cases h
  · cases h
  · split at h
    · next hd =>
      cases h
      dsimp only at hd
      split_ifs at hd
      split at hd
      · next hc =>
        split_ifs at hd with hkey
        cases hd
        exact ⟨decodeContent_inRange hc, hkey⟩
      · cases hd
    · cases h

theorem ArmEntry.cleared_inRange : ArmEntry.cleared.InRange := (ArmEntry.inRange_iff _).2 (by decide)

theorem DeviceConfig.defaults_inRange : DeviceConfig.defaults.InRange := (DeviceConfig.inRange_iff _).2 (by decide)

theorem curveInRange_nil : curveInRange [] := (curveInRange_iff _).2 (by decide)

theorem Tables.load_inRange (nv : NvTables) (k : EntryKey) : ((Tables.load nv).content k).InRange := by
  cases k with
  | recipe i =>
    simp only [Tables.content, Tables.load, Fin.getElem_fin, Vector.getElem_ofFn, loadRecipe]
    split
    · next h => exact (by cases ‹Option Recipe› <;> exact (NvEntry.loaded_stored h).1)
    all_goals trivial
  | curve i =>
    simp only [Tables.content, Tables.load, Fin.getElem_fin, Vector.getElem_ofFn, loadCurve]
    split
    · next h => exact (NvEntry.loaded_stored h).1
    all_goals exact curveInRange_nil
  | armEntry a =>
    simp only [Tables.content, Tables.load, Fin.getElem_fin, Vector.getElem_ofFn, loadArmEntry]
    split
    · next h => exact (NvEntry.loaded_stored h).1
    all_goals exact ArmEntry.cleared_inRange
  | config =>
    simp only [Tables.content, Tables.load, loadConfig]
    split
    · next h => exact (NvEntry.loaded_stored h).1
    all_goals exact DeviceConfig.defaults_inRange
  | slotTable | aliasTable | protection => trivial

theorem SaveEntry.totals_inRange {e : SaveEntry} (h : ∀ (c : Fin 2) (i : SaveImage), e.get c = .holds i → i.inRange)
    (p : StreamPos) : (e.totals p).inRange := by
  have hzero : MeterTotals.zero.inRange := ⟨by decide, by decide, by decide, by decide⟩
  unfold SaveEntry.totals
  split
  · exact hzero
  · split
    · next i hi => exact (h _ i hi).1
    · next i hi => exact (h _ i hi).2
    all_goals exact hzero

theorem State.torn_savesGood {s : State} (h : s.SavesGood) (a : Fin 8) (c : Fin 2) (i : SaveImage)
    (e : s.torn.saves[a].get c = .holds i) : i.inRange := by
  unfold State.torn at e
  split at e
  · exact h.1 a c i e
  · exact h.1 a c i e
  · exact Nonvolatile.putSave_inRange h.1 _ _ .failing nofun a c i e

theorem State.restart_metersGood {s : State} (h : s.SavesGood) (powered : Bool) :
    (s.restart powered s.torn).MetersGood := by
  intro a p
  obtain ⟨⟨hwild, -⟩, ⟨hctrl, -⟩, -⟩ : ((s.restart powered s.torn).armEntry a).InRange :=
    Tables.load_inRange s.torn.tables (.armEntry a)
  have hmeter : (s.restart powered s.torn).meter a p = Meter.afterReset (s.torn.saves[a].totals p) := by
    cases p <;> simp [State.restart, State.meter]
  have hk10 : 0 < ((s.restart powered s.torn).armEntry a).k10 p := by cases p <;> simp only [ArmEntry.k10] <;> omega
  rw [hmeter]
  exact ⟨⟨hk10, (by decide : 0 < 100000), (by decide : 0 < 100000)⟩, SaveEntry.totals_inRange (State.torn_savesGood h a) p⟩

/-! ## The invariant -/

/-- The parts of the invariant, as the lemmas above state them. -/
theorem State.inRange_iff (s : State) : s.InRange ↔
    s.LinksGood ∧ s.nv.metroCounter ≤ 65535 ∧ s.MetersGood ∧ s.SavesGood ∧ s.ContentsGood ∧ ∀ a, (s.arm a).Fits := by
  unfold State.InRange State.CountersInRange State.LinksGood State.TotalsInRange State.TablesInRange State.MetersGood
    Meter.Good State.SavesGood State.ContentsGood Arm.Fits
  constructor
  · rintro ⟨⟨h1, h2, h3, h4, h5, h6⟩, hres, ⟨htot, hsaves, hrun⟩, hcontent, hctx, hentries, hlast⟩
    exact ⟨⟨h1, h2, h3, h4, h5⟩, h6, fun a p => ⟨hres a p, htot a p⟩, ⟨hsaves, hrun⟩, hcontent,
      fun a => ⟨hctx a, hentries a, hlast a⟩⟩
  · rintro ⟨⟨h1, h2, h3, h4, h5⟩, h6, hmeters, ⟨hsaves, hrun⟩, hcontent, harms⟩
    exact ⟨⟨h1, h2, h3, h4, h5, h6⟩, fun a p => (hmeters a p).1, ⟨fun a p => (hmeters a p).2, hsaves, hrun⟩, hcontent,
      fun a => (harms a).1, fun a => (harms a).2.1, fun a => (harms a).2.2⟩

theorem Move.linksGood {s t : State} (h : Move s t) (hs : s.LinksGood) : t.LinksGood := by
  obtain ⟨hrack, hcrc, hstale, htest, hframes⟩ := hs
  obtain ⟨htrunk, herrors⟩ := h.trunk_rack_cases
  unfold State.LinksGood
  obtain e | ⟨c1, c2, c3, c4⟩ := htrunk
  · rw [e]
    exact ⟨herrors hrack, hcrc, hstale, htest, hframes⟩
  · exact ⟨herrors hrack, c1 hcrc, c2 hstale, c3 htest, c4.trans hframes⟩

theorem Move.inRange {s t : State} (h : Move s t) (hs : s.InRange) : t.InRange := by
  rw [State.inRange_iff] at hs ⊢
  obtain ⟨hlinks, hmetro, hmeters, hsaves, hcontents, harms⟩ := hs
  exact ⟨h.linksGood hlinks, h.metroCounter ▸ hmetro, h.metersGood hmeters, h.savesGood hmeters hsaves,
    fun k => h.content k ▸ hcontents k, fun a => (h.batchStep a).fits (harms a)⟩

theorem Answers.inRange {s t : State} (h : Answers s t) (hs : s.InRange) : t.InRange := by
  rw [State.inRange_iff] at hs ⊢
  obtain ⟨hlinks, hmetro, hmeters, hsaves, hcontents, harms⟩ := hs
  obtain ⟨hmeters', hsaves'⟩ := h.metersGood hmeters hsaves
  exact ⟨h.linksGood hlinks, satSucc_bound h.metroCounter hmetro, hmeters', hsaves', h.contentsGood hcontents,
    fun a => (h.batchRequest a).fits hcontents (harms a)⟩

theorem Arm.afterReset_fits : Arm.afterReset.Fits := by simp [Arm.Fits, Arm.afterReset]

theorem State.restart_inRange {s : State} (hs : s.InRange) (powered : Bool) : (s.restart powered s.torn).InRange := by
  rw [State.inRange_iff] at hs ⊢
  obtain ⟨-, hmetro, -, hsaves, -, -⟩ := hs
  refine ⟨by simp [State.LinksGood, State.restart, RackLink.afterReset, Trunk.afterReset], ?_,
    State.restart_metersGood hsaves powered, ⟨State.torn_savesGood hsaves, fun _ _ _ e => by cases e⟩,
    Tables.load_inRange s.torn.tables, fun a => ?_⟩
  · exact s.torn_metroCounter.symm ▸ hmetro
  · have harm : (s.restart powered s.torn).arm a = Arm.afterReset := by simp [State.restart, State.arm]
    rw [harm]
    exact Arm.afterReset_fits

/-- Settles O18: every move, request and reset keeps the ranges. -/
theorem rangesKept : Obligations.RangesKept := fun _ _ hs h =>
  step_keeps (P := State.InRange) (fun _ _ k => k) (fun _ _ => Move.inRange) (fun _ _ d => d.answers.inRange)
    (fun _ powered k => State.restart_inRange k powered) h hs

end Sys2Proof.Machine
end

section
/-! PROOFS. Steps, resets and the store engine: what a reset leaves, what a completed operation leaves (R16, R143, R144,
R147, R152, R153). -/

namespace Sys2Proof.Machine

/-- Settles O1, by the equation of `step`. -/
theorem stepRunsFrontCommand : Obligations.StepRunsFrontCommand := by
  intro c rest s h
  unfold step
  rw [h]

/-! ## Resets -/

theorem exec_powerUp (s : State) : exec .powerUp s = .next s.resetPart := rfl

theorem exec_rst {s : State} (h : s.powered = true) : exec .rst s = .next s.resetPart := congrArg _ (if_pos h)

theorem exec_powerDown (s : State) : exec .powerDown s = .next (s.restart false s.torn) := rfl

theorem exec_deviceReset {s : State} (h : s.powered = true) (hdue : s.rack.resetDue = true) :
    exec .deviceReset s = .next s.resetPart := congrArg _ ((if_pos h).trans (if_pos hdue))

/-- Settles O3: the three causes run the same reset. -/
theorem resetCausesAlike : Obligations.ResetCausesAlike := fun s h =>
  ⟨s.resetPart, exec_powerUp s, exec_rst h, exec_deviceReset h⟩

theorem State.torn_tables (s : State) (k : EntryKey) : s.torn.tables.get k =
    match s.store.underWay with
    | some (.commit c) => if c.key = k then .failing else s.nv.tables.get k
    | _ => s.nv.tables.get k := by
  unfold State.torn
  split
  · next h => rw [h]
  · next h => rw [h]; exact NvTables.get_put _ _ _ _
  · next h => rw [h]; rfl

theorem State.torn_saves (s : State) (a : Fin 8) (c : Fin 2) : s.torn.saves[a].get c =
    match s.store.underWay with
    | some (.save b d _) => if a = b ∧ c = d then .failing else s.nv.saves[a].get c
    | _ => s.nv.saves[a].get c := by
  unfold State.torn
  split
  · next h => rw [h]
  · next h => rw [h]; rfl
  · next h => rw [h]; exact Nonvolatile.saves_putSave _ _ _ _ _ _

/-- Settles O4: the array of the restart is the torn one. -/
theorem powerDownTearsOperation : Obligations.PowerDownTearsOperation := fun s =>
  ⟨_, exec_powerDown s, rfl, rfl, rfl, s.torn_metroCounter, s.torn_tables, s.torn_saves⟩

/-- A part that has restarted: every arm, slot and transfer is as after reset. -/
theorem State.restart_reads (s : State) (powered : Bool) (nv : Nonvolatile) :
    (∀ a, (s.restart powered nv).arm a = Arm.afterReset) ∧
    (∀ a p, (s.restart powered nv).meter a p = Meter.afterReset (nv.saves[a].totals p)) ∧
    (∀ l : Fin 4, (s.restart powered nv).windows[l] = StartWindow.closed) ∧
    (∀ a : Fin 8, (s.restart powered nv).transfers[a] = Transfer.released) := by
  refine ⟨fun a => ?_, fun a p => ?_, fun l => ?_, fun a => ?_⟩
  · simp [State.restart, State.arm]
  · cases p <;> simp [State.restart, State.meter]
  · simp [State.restart]
  · simp [State.restart]

/-- Settles O2: field by field, from the values after reset of each block. -/
theorem powerUpLeavesResetValues : Obligations.PowerUpLeavesResetValues := by
  intro s
  obtain ⟨harm, hmeter, hwindow, htransfer⟩ := s.restart_reads true s.torn
  refine ⟨_, exec_powerUp s, ⟨rfl, rfl, rfl, rfl, rfl, rfl, rfl, rfl, rfl, fun a => ?_⟩,
    ⟨rfl, rfl, rfl, rfl, rfl, rfl, rfl, rfl, rfl, fun i => ?_⟩, fun a p => ?_, fun a => ?_, fun l => ?_,
    ⟨rfl, rfl, rfl, rfl, rfl, s.torn_metroCounter⟩, fun a => ?_, rfl, rfl, rfl⟩
  · simp [State.resetPart, State.restart, RackLink.afterReset]
  · simp [State.resetPart, State.restart, Trunk.afterReset, Config.lossFrames]
  · simp only [State.resetPart, hmeter]
    rfl
  · simp [State.resetPart, harm, Arm.afterReset, Account.zero]
  · simp [State.resetPart, State.restart, StartWindow.closed]
  · simp [State.resetPart, State.restart, Transfer.released]

theorem State.reset_arm (a : Fin 8) : State.reset.arm a = Arm.afterReset := by simp [State.reset, State.arm]

/-- A blank part is a part that has restarted with a blank array. -/
theorem State.reset_inRange : State.reset.InRange := by
  rw [State.inRange_iff]
  have hmeter : ∀ a p, State.reset.meter a p = Meter.afterReset MeterTotals.zero := fun a p => by
    cases p <;> simp [State.reset, State.meter]
  have hentry : ∀ a, State.reset.armEntry a = ArmEntry.cleared := fun a => by
    simp [State.reset, State.armEntry, Tables.blank, Entry.loaded]
  refine ⟨by unfold State.LinksGood; decide, by decide, fun a p => ?_, ⟨fun a c i => ?_, nofun⟩, fun k => ?_, fun a => ?_⟩
  · rw [hmeter, hentry]
    cases p <;> exact ⟨⟨by decide, by decide, by decide⟩, by decide, by decide, by decide, by decide⟩
  · fin_cases c <;> simp [State.reset, Nonvolatile.blank, SaveEntry.get]
  · cases k with
    | recipe => simp [Tables.content, State.reset, Tables.blank, Entry.loaded, Content.InRange]
    | curve => simpa [Tables.content, State.reset, Tables.blank, Entry.loaded, Content.InRange] using curveInRange_nil
    | armEntry =>
      simpa [Tables.content, State.reset, Tables.blank, Entry.loaded, Content.InRange] using ArmEntry.cleared_inRange
    | config => exact DeviceConfig.defaults_inRange
    | slotTable | aliasTable | protection => trivial
  · rw [State.reset_arm]
    exact Arm.afterReset_fits

/-- Settles O7: the state after reset meets each invariant. -/
theorem invariantsHoldAtReset : Obligations.InvariantsHoldAtReset := by
  refine ⟨fun a _ => ?_, fun a => ?_, fun l => State.laneMatches_closed (by simp [State.reset]) fun a => ?_,
    State.reset_inRange, ?_, fun _ => rfl, fun _ => Nat.zero_le _, rfl⟩
  · rw [State.reset_arm]
    exact ⟨rfl, rfl⟩
  · rw [State.reset_arm]
    exact Arm.contextMatches_closed rfl rfl rfl rfl rfl
  · rw [State.reset_arm]
    exact Arm.not_pendingIn (by decide) l
  · simp [State.HeldMatches, State.reset, Transfer.released, RackLink.afterReset]

/-! ## Completed operations -/

/-- What begins when an operation has completed (R143, R152). -/
theorem State.beginNext_begins (s : State) :
    (s.beginNext.store.underWay = none ↔ s.store.queue = []) ∧
    (∀ content rest, s.store.queue = .commit content :: rest → s.beginNext.store.underWay = some (.commit content)) ∧
    (∀ b rest, s.store.queue = .save b :: rest →
      ∃ d im, s.beginNext.store.underWay = some (.save b d im) ∧ s.beginNext.SaveBegins b d im) := by
  have hu : s.beginNext.store.underWay = s.store.queue.head?.map s.beginOp := by
    rw [State.beginNext_eq]
    cases s.store.queue <;> rfl
  refine ⟨?_, fun content rest h => by rw [hu, h]; rfl, fun b rest h => ?_⟩
  · rw [hu]
    simp
  · refine ⟨(s.saveTarget b).1, _, by rw [hu, h]; rfl, ?_, ?_, ?_, ?_⟩
    · simp [State.meter]
    · simp [State.meter]
    · intro hlatest
      rw [State.beginNext_eq] at hlatest
      simp [State.saveTarget, hlatest]
    · intro d hlatest
      rw [State.beginNext_eq] at hlatest
      replace hlatest : s.store.latest[b] = some d := hlatest
      have htarget : (s.saveTarget b).1 = 1 - d := by
        unfold State.saveTarget
        rw [hlatest]
        dsimp only
        split <;> rfl
      refine ⟨htarget, fun last hheld => ?_⟩
      rw [State.beginNext_nv] at hheld
      unfold State.saveTarget
      rw [hlatest]
      dsimp only
      rw [hheld]
      rfl

theorem exec_saveComplete {s : State} {a : Fin 8} {c : Fin 2} {image : SaveImage} (h : s.powered = true)
    (hu : s.store.underWay = some (.save a c image)) (ok : Bool) :
    exec (.saveComplete ok) s = .next (s.finishSave a c image ok).beginNext := by
  have hcomplete : s.completeSave ok = (s.finishSave a c image ok).beginNext := by
    unfold State.completeSave
    rw [hu]
  exact congrArg _ ((if_pos h).trans hcomplete)

theorem exec_commitComplete {s : State} {content : Content} (h : s.powered = true)
    (hu : s.store.underWay = some (.commit content)) (ok : Bool) :
    exec (.commitComplete ok) s = .next (s.finishCommit content ok).beginNext := by
  have hcomplete : s.completeCommit ok = (s.finishCommit content ok).beginNext := by
    unfold State.completeCommit
    rw [hu]
  exact congrArg _ ((if_pos h).trans hcomplete)

/-- What a completed save leaves before the next operation begins. -/
theorem State.finishSave_eq (s : State) (a : Fin 8) (c : Fin 2) (image : SaveImage) (ok : Bool) :
    s.finishSave a c image ok =
      { s with
        nv := s.nv.putSave a c (if ok then .holds image else .failing)
        store := { s.store with
          saveFault := !ok, latest := if ok then s.store.latest.set a (some c) else s.store.latest } } := by
  cases ok <;> rfl

/-- Settles O8: the completed save, then the operation that begins. -/
theorem saveCompletes : Obligations.SaveCompletes := by
  intro s a c image ok hpow hu
  have hqueue : (s.finishSave a c image ok).store.queue = s.store.queue := by rw [State.finishSave_eq]
  have ⟨hnone, hcommit, hsave⟩ := (s.finishSave a c image ok).beginNext_begins
  rw [hqueue] at hnone hcommit hsave
  refine ⟨_, exec_saveComplete hpow hu ok, ?_, ?_, ?_, fun b d => ?_, hnone, hcommit, hsave⟩
  · rw [State.beginNext_eq, hqueue, State.finishSave_eq]
  · rw [State.beginNext_nv, State.finishSave_eq]
    rfl
  · rw [State.beginNext_nv, State.finishSave_eq]
    rfl
  · rw [State.beginNext_nv, State.finishSave_eq]
    exact Nonvolatile.saves_putSave _ _ _ _ _ _

/-- Settles O9: the completed commit, then the operation that begins. -/
theorem commitCompletes : Obligations.CommitCompletes := by
  intro s content ok hpow hu
  have ⟨hnone, hcommit, hsave⟩ := (s.finishCommit content ok).beginNext_begins
  refine ⟨_, exec_commitComplete hpow hu ok, ?_, ?_, ?_, ?_, ?_, ?_, hnone, hcommit, hsave, ?_, ?_, fun k => ?_,
      fun k => ?_, ?_⟩
  case refine_9 =>
    rw [State.beginNext_nv]
    exact NvTables.get_put _ _ _ _
  case refine_10 =>
    rw [State.beginNext_tables]
    exact s.tables.setInvalid_keeps (!ok) content.key k
  all_goals
    rw [State.beginNext_eq]
    rfl

/-- A save that completes and is the newer copy is the one restored (R143, R144). -/
theorem SaveEntry.totals_of_newer {e : SaveEntry} {c : Fin 2} {image : SaveImage} (h : e.get c = .holds image)
    (hnewer : ∀ other, e.get (1 - c) = .holds other → image.seq = (other.seq + 1) % Config.counterModulus) :
    e.totals .wild = image.wild ∧ e.totals .ctrl = image.ctrl := by
  have hchosen : e.chosen = some c := by
    obtain ⟨copy0, copy1⟩ := e
    fin_cases c
    · replace h : copy0 = .holds image := h
      subst h
      cases copy1 with
      | holds other =>
        have hseq := hnewer other rfl
        have hnot : ¬ other.seq = (image.seq + 1) % Config.counterModulus := by
          simp only [Config.counterModulus] at hseq ⊢
          omega
        exact (if_neg hnot).trans (if_pos hseq)
      | unwritten | failing => rfl
    · replace h : copy1 = .holds image := h
      subst h
      cases copy0 with
      | holds other => exact if_pos (hnewer other rfl)
      | unwritten | failing => rfl
  unfold SaveEntry.totals
  rw [hchosen]
  dsimp only
  rw [h]
  exact ⟨rfl, rfl⟩

end Sys2Proof.Machine
end

section
/-! PROOFS. The layouts of the table contents (spec 09 section 9.2): a payload carries a content exactly when it is its
encoding, and exactly when it is read as that content. -/

namespace Sys2Proof.Machine

/-! ## Fields at an offset -/

theorem beBytes_one (n : Nat) : beBytes 1 n = [BitVec.ofNat 8 n] := by simp [beBytes]

theorem numAt_one (p : List Byte) (o : Nat) : numAt p o 1 = byteAt p o := by
  unfold numAt slice byteAt
  rw [List.getD_eq_getElem?_getD, ← List.head?_drop]
  cases p.drop o <;> simp [readBe]

theorem readBe_lt (bytes : List Byte) : readBe bytes < 256 ^ bytes.length := by
  induction bytes with
  | nil => simp [readBe]
  | cons b rest ih =>
    have hb := b.isLt
    rw [← List.singleton_append, readBe_append, List.length_append, pow_add, List.length_singleton, pow_one]
    have hone : readBe [b] = b.toNat := by simp [readBe]
    rw [hone]
    calc b.toNat * 256 ^ rest.length + readBe rest < b.toNat * 256 ^ rest.length + 256 ^ rest.length := by omega
      _ = (b.toNat + 1) * 256 ^ rest.length := by ring
      _ ≤ 256 * 256 ^ rest.length := Nat.mul_le_mul_right _ (by omega)

/-- Bytes of one length that carry one number are the same. -/
theorem readBe_injective {a b : List Byte} (hlength : a.length = b.length) (h : readBe a = readBe b) : a = b := by
  induction a generalizing b with
  | nil => exact (List.eq_nil_of_length_eq_zero hlength.symm).symm
  | cons x a ih =>
    obtain ⟨y, b, rfl⟩ : ∃ y c, b = y :: c := by cases b <;> simp_all
    have hl : a.length = b.length := by simpa using hlength
    have hone : ∀ z : Byte, readBe [z] = z.toNat := fun z => by simp [readBe]
    rw [← List.singleton_append, ← List.singleton_append (x := y), readBe_append, readBe_append, hone, hone, hl] at h
    have ha := readBe_lt a
    have hb := readBe_lt b
    rw [hl] at ha
    have hpos : 0 < 256 ^ b.length := by positivity
    have hdiv : ∀ u r : Nat, r < 256 ^ b.length → (u * 256 ^ b.length + r) / 256 ^ b.length = u := fun u r hr => by
      rw [Nat.mul_comm, Nat.mul_add_div hpos, Nat.div_eq_of_lt hr, Nat.add_zero]
    have hxy : x.toNat = y.toNat := by rw [← hdiv x.toNat _ ha, h, hdiv y.toNat _ hb]
    rw [hxy] at h
    rw [BitVec.eq_of_toNat_eq hxy, ih hl (by omega)]

/-- A field stands at an offset exactly when the bytes there carry its number. -/
theorem drop_eq_field_iff {p r : List Byte} {o w v : Nat} (hw : 0 < w) (hv : v < 256 ^ w) :
    p.drop o = beBytes w v ++ r ↔ o + w ≤ p.length ∧ numAt p o w = v ∧ p.drop (o + w) = r := by
  have hread := readBe_beBytes w v hv
  constructor
  · intro h
    have hlength := congrArg List.length h
    rw [List.length_drop, List.length_append, beBytes_length] at hlength
    refine ⟨by omega, ?_, drop_after h (beBytes_length w v) rfl⟩
    unfold numAt slice
    rw [h, List.take_left' (beBytes_length w v), hread]
  · rintro ⟨hlength, hnum, rfl⟩
    have hslice : (p.drop o).take w = beBytes w v := by
      refine readBe_injective ?_ (hnum.trans hread.symm)
      rw [List.length_take, List.length_drop, beBytes_length]
      omega
    rw [← hslice, ← List.drop_drop, List.take_append_drop]

/-- A byte stands at an offset exactly when it is read there. -/
theorem drop_eq_byte_iff {p r : List Byte} {o v : Nat} (hv : v < 256) :
    p.drop o = beBytes 1 v ++ r ↔ o + 1 ≤ p.length ∧ byteAt p o = v ∧ p.drop (o + 1) = r := by
  rw [drop_eq_field_iff (by decide) (by omega), numAt_one]

/-- Some bytes stand at an offset. -/
theorem drop_eq_append_iff {p q r : List Byte} {o : Nat} :
    p.drop o = q ++ r ↔ (p.drop o).take q.length = q ∧ p.drop (o + q.length) = r := by
  constructor
  · intro h
    exact ⟨by rw [h, List.take_left], drop_after h rfl rfl⟩
  · rintro ⟨hq, rfl⟩
    rw [← List.drop_drop]
    conv_lhs => rw [← List.take_append_drop q.length (p.drop o), hq]

/-- Items of one width stand one after the other up to the end. -/
theorem drop_eq_flatMap_iff {α : Type} {p : List Byte} {enc : α → List Byte} {w : Nat} {C : α → Nat → Prop} (l : List α)
    (hC : ∀ x ∈ l, ∀ o r, p.drop o = enc x ++ r ↔ o + w ≤ p.length ∧ C x o ∧ p.drop (o + w) = r) {o : Nat}
    (ho : o ≤ p.length) :
    p.drop o = l.flatMap enc ↔
      p.length = o + w * l.length ∧ ∀ (k : Nat) (x : α), l[k]? = some x → C x (o + w * k) := by
  induction l generalizing o with
  | nil => simp; omega
  | cons x l ih =>
    rw [List.flatMap_cons, hC x (List.mem_cons_self) o _]
    constructor
    · rintro ⟨hle, hx, hrest⟩
      obtain ⟨hlength, hall⟩ := (ih (fun y hy => hC y (List.mem_cons_of_mem x hy)) hle).1 hrest
      refine ⟨by rw [hlength, List.length_cons]; ring, fun k y hk => ?_⟩
      cases k with
      | zero => cases hk; exact hx
      | succ k =>
        have := hall k y (by simpa using hk)
        rwa [show o + w + w * k = o + w * (k + 1) by ring] at this
    · rintro ⟨hlength, hall⟩
      rw [List.length_cons, Nat.mul_add, Nat.mul_one] at hlength
      refine ⟨by omega, hall 0 x rfl, (ih (fun y hy => hC y (List.mem_cons_of_mem x hy)) (by omega)).2
        ⟨by omega, fun k y hk => ?_⟩⟩
      have := hall (k + 1) y (by simpa using hk)
      rwa [show o + w * (k + 1) = o + w + w * k by ring] at this

/-! ## Reading codes, flags and lists -/

theorem boolOf_eq_some {n : Nat} {b : Bool} : boolOf n = some b ↔ n = if b then 1 else 0 := by
  unfold boolOf
  cases b <;> split_ifs <;> simp_all

theorem finOf_eq_some {bound n : Nat} {i : Fin bound} : finOf bound n = some i ↔ n = i.val := by
  unfold finOf
  constructor
  · intro h
    split at h <;> cases h
    rfl
  · rintro rfl
    simp

theorem Role.ofCode_eq_some {n : Nat} {r : Role} : Role.ofCode n = some r ↔ n = r.number := by
  constructor
  · intro h
    unfold Role.ofCode at h
    split at h
    · cases h; rfl
    · cases h; rfl
    · cases h; rfl
    · cases h; rfl
    · cases h; rfl
    · next m h0 h1 h2 h3 h4 =>
      rw [Option.map_eq_some_iff] at h
      obtain ⟨k, hk, rfl⟩ := h
      rw [finOf_eq_some] at hk
      have : 4 < n := by
        by_contra hle
        interval_cases n <;> contradiction
      simp only [Role.number]
      omega
  · rintro rfl
    cases r with
    | inj k => fin_cases k <;> rfl
    | _ => rfl

theorem ProtMode.ofCode_eq_some {n : Nat} {m : ProtMode} : ProtMode.ofCode n = some m ↔
    n = match m with | .modeOpen => 0 | .switched => 1 | .lockedToRestart => 2 | .permanent => 3 := by
  constructor
  · intro h
    unfold ProtMode.ofCode at h
    split at h <;> cases h <;> rfl
  · rintro rfl
    cases m <;> rfl

theorem collect_eq_some {α : Type} {l : List (Option α)} {xs : List α} : collect l = some xs ↔ l = xs.map some := by
  induction l generalizing xs with
  | nil => cases xs <;> simp [collect]
  | cons x l ih =>
    cases x with
    | none => cases xs <;> simp [collect]
    | some x =>
      cases xs with
      | nil => simp [collect]
      | cons y ys => simp [collect, ih, and_comm]

/-- Items read one after the other are a list of their number with each item read in its place. -/
theorem map_range_eq_map_some {α : Type} {n : Nat} {f : Nat → Option α} {xs : List α} :
    (List.range n).map f = xs.map some ↔ n = xs.length ∧ ∀ (k : Nat) (x : α), xs[k]? = some x → f k = some x := by
  constructor
  · intro h
    have hn : n = xs.length := by simpa using congrArg List.length h
    refine ⟨hn, fun k x hk => ?_⟩
    have hlt : k < n := hn ▸ (List.getElem?_eq_some_iff.1 hk).1
    have := congrArg (·[k]?) h
    simpa [hk, hlt] using this
  · rintro ⟨rfl, h⟩
    refine List.ext_getElem (by simp) fun k hk hk' => ?_
    simpa using h k (xs[k]'(by simpa using hk')) (List.getElem?_eq_getElem (by simpa using hk'))

/-- A vector read item by item. -/
theorem collect_vectorOf_eq_some {α : Type} {n : Nat} {f : Nat → Option α} {t : Vector α n} :
    (collect ((List.range n).map f)).bind (vectorOf n) = some t ↔ ∀ i : Fin n, f i.val = some t[i] := by
  have hvector : ∀ xs : List α, vectorOf n xs = some t ↔ xs = t.toList := by
    intro xs
    unfold vectorOf
    constructor
    · intro h
      split at h <;> cases h
      rfl
    · rintro rfl
      rw [dif_pos (by simp)]
      rfl
  have hread : (List.range n).map f = t.toList.map some ↔ ∀ i : Fin n, f i.val = some t[i] := by
    rw [map_range_eq_map_some]
    constructor
    · rintro ⟨-, h⟩ i
      exact h i.val t[i] (by simp)
    · intro h
      refine ⟨by simp, fun k x hk => ?_⟩
      obtain ⟨hlt, rfl⟩ := List.getElem?_eq_some_iff.1 hk
      simpa using h ⟨k, by simpa using hlt⟩
  rw [← hread, ← collect_eq_some]
  cases collect ((List.range n).map f) with
  | some xs => rw [Option.bind_some, hvector, Option.some.injEq]
  | none => simp

/-- A vector's items one after the other. -/
theorem vector_forall_iff {α : Type} {n : Nat} (t : Vector α n) (P : Nat → α → Prop) :
    (∀ (k : Nat) (x : α), t.toList[k]? = some x → P k x) ↔ ∀ i : Fin n, P i.val t[i] := by
  constructor
  · intro h i
    exact h i.val t[i] (by simp)
  · intro h k x hk
    obtain ⟨hlt, rfl⟩ := List.getElem?_eq_some_iff.1 hk
    simpa using h ⟨k, by simpa using hlt⟩

/-- The target code and the index of an entry (spec 09 section 9.2). -/
def EntryKey.target : EntryKey → Nat × Nat
  | .recipe i => (0, i.val)
  | .curve i => (1, i.val)
  | .armEntry a => (2, a.val)
  | .slotTable => (3, 0)
  | .aliasTable a => (4, a.val)
  | .config => (5, 0)
  | .protection => (6, 0)

theorem EntryKey.ofTarget_eq_some {target index : Nat} {k : EntryKey} :
    EntryKey.ofTarget target index = some k ↔ (target, index) = k.target := by
  unfold EntryKey.ofTarget
  split <;> cases k <;> simp_all [EntryKey.target, finOf_eq_some, Option.map_eq_some_iff]

/-! ## Reading contents -/

theorem readAdditive_eq_some {p : List Byte} {o : Nat} {i : AdditiveItem} :
    readAdditive p o = some i ↔ i.CarriedAt p o := by
  unfold readAdditive
  constructor
  · intro h
    split at h
    · next injector continues hinj hcont =>
      cases h
      exact ⟨finOf_eq_some.1 hinj, rfl, rfl, rfl, by rw [boolOf_eq_some.1 hcont]; cases continues <;> rfl⟩
    · cases h
  · rintro ⟨hinj, hdose, hinterval, htolerance, hstop⟩
    have hcont : boolOf (byteAt p (o + 7)) = some (!i.stop) := boolOf_eq_some.2 (by rw [hstop]; cases i.stop <;> rfl)
    rw [finOf_eq_some.2 hinj, hcont]
    simp [hdose, hinterval, htolerance]

/-- The fields of a recipe record that follow its presence byte, without the length of the payload. -/
def Recipe.FieldsIn (r : Recipe) (p : List Byte) : Prop :=
  let n := r.name.length
  byteAt p 3 = n ∧ (p.drop 4).take n = r.name ∧
  (numAt p (4 + n) 2 = r.fraction ∧ byteAt p (6 + n) = (if r.ethanolControlled then 1 else 0) ∧
   numAt p (7 + n) 2 = r.alphaEthanol ∧ numAt p (9 + n) 2 = r.alphaBase ∧ numAt p (11 + n) 2 = r.gain ∧
   numAt p (13 + n) 2 = r.trimLimit ∧ numAt p (15 + n) 2 = r.band ∧ numAt p (17 + n) 2 = r.checkVolume ∧
   numAt p (19 + n) 2 = r.persistence) ∧
  byteAt p (21 + n) = r.additives.length ∧
  ∀ (k : Nat) (i : AdditiveItem), r.additives[k]? = some i → i.CarriedAt p (22 + n + 8 * k)

theorem readRecipe_eq_some {p : List Byte} {r : Recipe} (hlength : 22 + byteAt p 3 ≤ p.length) :
    readRecipe p = some r ↔ r.FieldsIn p := by
  unfold readRecipe
  dsimp only
  have hoff : ∀ n k, 4 + n + k = 4 + k + n := fun n k => by omega
  constructor
  · intro h
    split at h
    · next ethanol additives hethanol hadditives =>
      cases h
      have hname : (slice p 4 (byteAt p 3)).length = byteAt p 3 := by
        unfold slice
        rw [List.length_take, List.length_drop]
        omega
      rw [collect_eq_some, map_range_eq_map_some] at hadditives
      obtain ⟨hcount, hitems⟩ := hadditives
      rw [boolOf_eq_some] at hethanol
      simp only [hoff] at hcount hitems hethanol
      refine ⟨hname.symm, by dsimp only; rw [hname]; rfl, ?_⟩
      simp only [hname, hoff, true_and, and_true]
      exact ⟨hethanol, hcount, fun k i hk => readAdditive_eq_some.1 (hitems k i hk)⟩
    · cases h
  · rintro ⟨hname, hbytes, ⟨h1, h2, h3, h4, h5, h6, h7, h8, h9⟩, hcount, hitems⟩
    have hadditives : collect ((List.range (byteAt p (21 + r.name.length))).map
        (fun i => readAdditive p (22 + r.name.length + 8 * i))) = some r.additives := by
      rw [collect_eq_some, map_range_eq_map_some]
      exact ⟨hcount, fun k i hk => readAdditive_eq_some.2 (hitems k i hk)⟩
    have hadds : ∀ k, 4 + r.name.length + k = 4 + k + r.name.length := hoff _
    rw [hname, hadds 2, hadds 3, hadds 5, hadds 7, hadds 9, hadds 11, hadds 13, hadds 15, hadds 17, hadds 18]
    rw [boolOf_eq_some.2 h2, hadditives]
    simp [slice, hbytes, h1, h3, h4, h5, h6, h7, h8, h9]

theorem readCurve_eq {p : List Byte} {points : List CurvePoint} :
    readCurve p = points ↔ byteAt p 2 = points.length ∧ ∀ (k : Nat) (q : CurvePoint), points[k]? = some q →
      numAt p (3 + 6 * k) 2 = q.flow ∧ numAt p (5 + 6 * k) 4 = q.factor := by
  have hmap : readCurve p = points ↔ (List.range (byteAt p 2)).map
      (fun i => some ({ flow := numAt p (3 + 6 * i) 2, factor := numAt p (5 + 6 * i) 4 } : CurvePoint)) =
        points.map some := by
    rw [← (List.map_injective_iff.2 (Option.some_injective CurvePoint)).eq_iff]
    unfold readCurve
    rw [List.map_map]
    rfl
  rw [hmap, map_range_eq_map_some]
  refine and_congr_right fun _ => forall_congr' fun k => forall_congr' fun q => imp_congr_right fun _ => ?_
  rw [Option.some.injEq, CurvePoint.mk.injEq]

theorem readArmEntry_eq_some {p : List Byte} {e : ArmEntry} (hlength : p.length = 37) :
    readArmEntry p = some e ↔ e.CarriedBy p := by
  unfold readArmEntry
  constructor
  · intro h
    split at h
    · next henabled hlane hwild hctrl =>
      cases h
      exact ⟨hlength, boolOf_eq_some.1 henabled, finOf_eq_some.1 hlane, rfl, rfl, finOf_eq_some.1 hwild,
        finOf_eq_some.1 hctrl, rfl, rfl, rfl, rfl, rfl, rfl, rfl, rfl, rfl, rfl⟩
    · cases h
  · rintro ⟨-, henabled, hlane, hk1, hk2, hwild, hctrl, h1, h2, h3, h4, h5, h6, h7, h8, h9, h10⟩
    rw [boolOf_eq_some.2 henabled, finOf_eq_some.2 hlane, finOf_eq_some.2 hwild, finOf_eq_some.2 hctrl]
    simp [hk1, hk2, h1, h2, h3, h4, h5, h6, h7, h8, h9, h10]

theorem readSlotEntry_eq_some {p : List Byte} {k : Nat} {e : SlotEntry} :
    readSlotEntry p k = some e ↔ byteAt p (2 + 2 * k) = e.arm.val ∧ byteAt p (3 + 2 * k) = e.role.number := by
  unfold readSlotEntry
  constructor
  · intro h
    split at h
    · next harm hrole =>
      cases h
      exact ⟨finOf_eq_some.1 harm, Role.ofCode_eq_some.1 hrole⟩
    · cases h
  · rintro ⟨harm, hrole⟩
    rw [finOf_eq_some.2 harm, Role.ofCode_eq_some.2 hrole]

theorem readAlias_eq_some {n : Nat} {x : Option (Fin 64)} :
    readAlias n = some x ↔ n = match x with | none => 255 | some i => i.val := by
  unfold readAlias
  constructor
  · intro h
    split at h
    · next e => cases h; exact e
    · rw [Option.map_eq_some_iff] at h
      obtain ⟨i, hi, rfl⟩ := h
      exact finOf_eq_some.1 hi
  · rintro rfl
    cases x with
    | none => rfl
    | some i =>
      have := i.isLt
      rw [if_neg (by dsimp only; omega), finOf_eq_some.2 rfl]
      rfl

theorem readProtection_eq_some {p : List Byte} {r : Protection} (hlength : p.length = 6) :
    readProtection p = some r ↔ r.CarriedBy p := by
  unfold readProtection
  constructor
  · intro h
    split at h
    · next hrange htop hcomplement hmode =>
      cases h
      exact ⟨hlength, finOf_eq_some.1 hrange, boolOf_eq_some.1 htop, boolOf_eq_some.1 hcomplement,
        ProtMode.ofCode_eq_some.1 hmode⟩
    · cases h
  · rintro ⟨-, hrange, htop, hcomplement, hmode⟩
    rw [finOf_eq_some.2 hrange, boolOf_eq_some.2 htop, boolOf_eq_some.2 hcomplement, ProtMode.ofCode_eq_some.2 hmode]

theorem readConfig_eq {p : List Byte} {d : DeviceConfig} (hlength : p.length = 18) :
    readConfig p = d ↔ d.CarriedBy p := by
  constructor
  · rintro rfl
    exact ⟨hlength, rfl, rfl, rfl, rfl, rfl, rfl, rfl, rfl⟩
  · rintro ⟨-, h1, h2, h3, h4, h5, h6, h7, h8⟩
    simp [readConfig, h1, h2, h3, h4, h5, h6, h7, h8]

/-- The entry of a content that is read is the one its target code and index name. -/
theorem readContent_key {p : List Byte} {c : Content} (h : readContent p = some c) :
    (byteAt p 0, byteAt p 1) = c.key.target := by
  rw [← EntryKey.ofTarget_eq_some]
  unfold readContent at h
  split at h
  · cases h
  · next hk =>
    split at h
    · cases h; exact hk
    · obtain ⟨r, -, rfl⟩ := Option.map_eq_some_iff.1 h; exact hk
  · next hk => cases h; exact hk
  · next hk => obtain ⟨r, -, rfl⟩ := Option.map_eq_some_iff.1 h; exact hk
  · next hk => obtain ⟨r, -, rfl⟩ := Option.map_eq_some_iff.1 h; exact hk
  · next hk => obtain ⟨r, -, rfl⟩ := Option.map_eq_some_iff.1 h; exact hk
  · next hk => cases h; exact hk
  · next hk => obtain ⟨r, -, rfl⟩ := Option.map_eq_some_iff.1 h; exact hk

theorem Content.CarriedBy.target {c : Content} {p : List Byte} (h : c.CarriedBy p) :
    (byteAt p 0, byteAt p 1) = c.key.target := by
  rcases c with ⟨i, _ | r⟩ | ⟨i, points⟩ | ⟨a, e⟩ | t | ⟨a, t⟩ | d | r <;> exact Prod.ext h.1 h.2.1

/-- The length that a payload's target and counts give it (spec 09 section 9.2). -/
theorem storeLengthRight_of_target {p : List Byte} (h : storeLengthRight p) :
    (byteAt p 0 = 0 → (byteAt p 2 = 0 ∧ p.length = 3) ∨
      (byteAt p 2 = 1 ∧ p.length = 22 + byteAt p 3 + 8 * byteAt p (21 + byteAt p 3))) ∧
    (byteAt p 0 = 1 → p.length = 3 + 6 * byteAt p 2) ∧ (byteAt p 0 = 2 → p.length = 37) ∧
    (byteAt p 0 = 3 → p.length = 130) ∧ (byteAt p 0 = 4 → p.length = 10) ∧ (byteAt p 0 = 5 → p.length = 18) ∧
    (byteAt p 0 = 6 → p.length = 6) := by
  unfold storeLengthRight at h
  omega

theorem Content.CarriedBy.lengthRight {c : Content} {p : List Byte} (h : c.CarriedBy p) : storeLengthRight p := by
  unfold storeLengthRight
  rcases c with ⟨i, _ | r⟩ | ⟨i, points⟩ | ⟨a, e⟩ | t | ⟨a, t⟩ | d | r
  · obtain ⟨h0, -, h2, hl⟩ := h; exact .inl ⟨h0, h2, hl⟩
  · obtain ⟨h0, -, hl, h2, h3, -, -, hcount, -⟩ := h
    exact .inr (.inl ⟨h0, h2, by rw [h3, hcount]; exact hl⟩)
  · obtain ⟨h0, -, hl, h2, -⟩ := h; omega
  · obtain ⟨h0, -, hl, -⟩ := h; omega
  · obtain ⟨h0, -, hl, -⟩ := h; omega
  · obtain ⟨h0, -, hl, -⟩ := h; omega
  · obtain ⟨h0, -, hl, -⟩ := h; omega
  · obtain ⟨h0, -, hl, -⟩ := h; omega

/-- A payload of the right length is read as the content that it carries. -/
theorem readContent_eq_some {p : List Byte} {c : Content} (hright : storeLengthRight p) :
    readContent p = some c ↔ c.CarriedBy p := by
  by_cases hk : (byteAt p 0, byteAt p 1) = c.key.target
  · have hof := EntryKey.ofTarget_eq_some.2 hk
    have ⟨h0, h1⟩ := Prod.mk.inj hk
    obtain ⟨hl0, hl1, hl2, hl3, hl4, hl5, hl6⟩ := storeLengthRight_of_target hright
    unfold readContent
    rw [hof]
    rcases c with ⟨i, _ | r⟩ | ⟨i, points⟩ | ⟨a, e⟩ | t | ⟨a, t⟩ | d | r <;>
      dsimp only [Content.key, EntryKey.target] at h0 h1 ⊢
    · constructor
      · intro h
        split at h
        · next h2 => exact ⟨h0, h1, h2, by have := hl0 h0; omega⟩
        · obtain ⟨r, -, e⟩ := Option.map_eq_some_iff.1 h; cases e
      · rintro ⟨-, -, h2, -⟩
        rw [if_pos h2]
    · constructor
      · intro h
        split at h
        · cases h
        · next h2 =>
          obtain ⟨x, hx, e⟩ := Option.map_eq_some_iff.1 h
          cases e
          obtain ⟨hmark, hl⟩ := (hl0 h0).resolve_left (fun e => h2 e.1)
          obtain ⟨hname, hbytes, hfields, hcount, hitems⟩ := (readRecipe_eq_some (by omega)).1 hx
          exact ⟨h0, h1, by rw [hl, hname, hcount], hmark, hname, hbytes, hfields, hcount, hitems⟩
      · rintro ⟨-, -, hl, hmark, hname, hbytes, hfields, hcount, hitems⟩
        rw [if_neg (by omega), (readRecipe_eq_some (by omega)).2 ⟨hname, hbytes, hfields, hcount, hitems⟩]
        rfl
    · rw [Option.some.injEq, Content.curve.injEq, readCurve_eq]
      refine ⟨fun ⟨_, h2, h⟩ => ⟨h0, h1, by rw [hl1 h0, h2], h2, h⟩, fun ⟨_, _, _, h2, h⟩ => ⟨rfl, h2, h⟩⟩
    · rw [Option.map_eq_some_iff]
      refine ⟨fun ⟨x, hx, e⟩ => ?_, fun ⟨_, _, h⟩ => ⟨e, (readArmEntry_eq_some (hl2 h0)).2 h, rfl⟩⟩
      cases e
      exact ⟨h0, h1, (readArmEntry_eq_some (hl2 h0)).1 hx⟩
    · have hread : readSlotTable p = some t ↔ ∀ i : Fin 64, readSlotEntry p i.val = some t[i] := by
        rw [← collect_vectorOf_eq_some]
        unfold readSlotTable
        cases collect ((List.range 64).map (readSlotEntry p)) <;> rfl
      simp only [readSlotEntry_eq_some] at hread
      rw [Option.map_eq_some_iff]
      refine ⟨fun ⟨x, hx, e⟩ => ?_, fun ⟨_, _, _, h⟩ => ⟨t, hread.2 h, rfl⟩⟩
      cases e
      exact ⟨h0, h1, hl3 h0, hread.1 hx⟩
    · have hread : readAliasTable p = some t ↔ ∀ i : Fin 8, readAlias (byteAt p (2 + i.val)) = some t[i] := by
        rw [← collect_vectorOf_eq_some (f := fun i => readAlias (byteAt p (2 + i)))]
        unfold readAliasTable
        cases collect ((List.range 8).map (fun i => readAlias (byteAt p (2 + i)))) <;> rfl
      simp only [readAlias_eq_some] at hread
      rw [Option.map_eq_some_iff]
      refine ⟨fun ⟨x, hx, e⟩ => ?_, fun ⟨_, _, _, h⟩ => ⟨t, hread.2 h, rfl⟩⟩
      cases e
      exact ⟨h0, h1, hl4 h0, hread.1 hx⟩
    · rw [Option.some.injEq, Content.config.injEq, readConfig_eq (hl5 h0)]
      exact ⟨fun h => ⟨h0, h1, h⟩, fun h => h.2.2⟩
    · rw [Option.map_eq_some_iff]
      refine ⟨fun ⟨x, hx, e⟩ => ?_, fun ⟨_, _, h⟩ => ⟨r, (readProtection_eq_some (hl6 h0)).2 h, rfl⟩⟩
      cases e
      exact ⟨h0, h1, (readProtection_eq_some (hl6 h0)).1 hx⟩
  · exact ⟨fun h => absurd (readContent_key h) hk, fun h => absurd h.target hk⟩

/-- A payload of the right length decodes to a content exactly when it carries it and every field is in range. -/
theorem decodeContent_eq_some {p : List Byte} {c : Content} (hright : storeLengthRight p) :
    decodeContent p = some c ↔ c.InRange ∧ c.CarriedBy p := by
  rw [← readContent_eq_some hright, Content.inRange_iff]
  unfold decodeContent
  cases readContent p with
  | none => simp
  | some d =>
    dsimp only
    split
    · next h => rw [Option.some.injEq]; exact ⟨fun e => ⟨e ▸ h, e⟩, fun e => e.2⟩
    · next h => exact ⟨nofun, fun ⟨hv, e⟩ => absurd (Option.some.inj e ▸ hv) h⟩

/-! ## Encoding contents -/

/-- The last field ends the payload. -/
theorem drop_eq_nil_iff_of_le {p : List Byte} {o : Nat} (h : o ≤ p.length) : p.drop o = [] ↔ p.length = o := by
  rw [List.drop_eq_nil_iff]
  omega

theorem AdditiveItem.drop_iff {p : List Byte} {i : AdditiveItem} {o : Nat} {r : List Byte}
    (hdose : i.dose ≤ 2000) (hinterval : i.interval ≤ 1000) (htolerance : i.tolerance ≤ 20) :
    p.drop o = writeAdditive i ++ r ↔ o + 8 ≤ p.length ∧ i.CarriedAt p o ∧ p.drop (o + 8) = r := by
  have hinj := i.injector.isLt
  have hstop : boolNum (!i.stop) = if i.stop then 0 else 1 := by cases i.stop <;> rfl
  have hbit : boolNum (!i.stop) < 256 := by cases i.stop <;> decide
  unfold writeAdditive AdditiveItem.CarriedAt
  simp only [List.append_assoc]
  rw [drop_eq_byte_iff (by omega), drop_eq_field_iff (by decide) (by omega), drop_eq_field_iff (by decide) (by omega),
    drop_eq_field_iff (by decide) (by omega), drop_eq_byte_iff hbit, hstop]
  constructor
  · rintro ⟨-, h1, -, h2, -, h3, -, h4, hle, h5, hr⟩
    exact ⟨hle, ⟨h1, h2, h3, h4, h5⟩, hr⟩
  · rintro ⟨hle, ⟨h1, h2, h3, h4, h5⟩, hr⟩
    exact ⟨by omega, h1, by omega, h2, by omega, h3, by omega, h4, hle, h5, hr⟩

theorem CurvePoint.drop_iff {p : List Byte} {q : CurvePoint} {o : Nat} {r : List Byte} (hflow : q.flow ≤ 6000)
    (hfactor : q.factor ≤ 105000) :
    p.drop o = beBytes 2 q.flow ++ beBytes 4 q.factor ++ r ↔
      o + 6 ≤ p.length ∧ (numAt p o 2 = q.flow ∧ numAt p (o + 2) 4 = q.factor) ∧ p.drop (o + 6) = r := by
  rw [List.append_assoc, drop_eq_field_iff (by decide) (by omega), drop_eq_field_iff (by decide) (by omega)]
  constructor
  · rintro ⟨-, h1, hle, h2, hr⟩
    exact ⟨hle, ⟨h1, h2⟩, hr⟩
  · rintro ⟨hle, ⟨h1, h2⟩, hr⟩
    exact ⟨by omega, h1, hle, h2, hr⟩

theorem SlotEntry.drop_iff {p : List Byte} {e : SlotEntry} {o : Nat} {r : List Byte} :
    p.drop o = beBytes 1 e.arm.val ++ beBytes 1 e.role.code ++ r ↔
      o + 2 ≤ p.length ∧ (byteAt p o = e.arm.val ∧ byteAt p (o + 1) = e.role.number) ∧ p.drop (o + 2) = r := by
  have harm := e.arm.isLt
  have hrole : e.role.number < 256 := by
    cases e.role with
    | inj k => have := k.isLt; simp only [Role.number]; omega
    | _ => decide
  rw [List.append_assoc, ← Role.number_eq, drop_eq_byte_iff (by omega), drop_eq_byte_iff hrole]
  constructor
  · rintro ⟨-, h1, hle, h2, hr⟩
    exact ⟨hle, ⟨h1, h2⟩, hr⟩
  · rintro ⟨hle, ⟨h1, h2⟩, hr⟩
    exact ⟨by omega, h1, hle, h2, hr⟩

/-- Target code and index, then the body of a content. -/
theorem eq_target_append_iff {p r : List Byte} {target index : Nat} (ht : target < 256) (hi : index < 256) :
    p = [BitVec.ofNat 8 target, BitVec.ofNat 8 index] ++ r ↔
      2 ≤ p.length ∧ byteAt p 0 = target ∧ byteAt p 1 = index ∧ p.drop 2 = r := by
  have hcons : ∀ l : List Byte, [BitVec.ofNat 8 target, BitVec.ofNat 8 index] ++ l =
      beBytes 1 target ++ (beBytes 1 index ++ l) := fun l => by rw [beBytes_one, beBytes_one]; rfl
  conv_lhs => rw [← p.drop_zero, hcons]
  rw [drop_eq_byte_iff ht, drop_eq_byte_iff hi]
  constructor
  · rintro ⟨-, h0, hle, h1, hr⟩
    exact ⟨hle, h0, h1, hr⟩
  · rintro ⟨hle, h0, h1, hr⟩
    exact ⟨by omega, h0, hle, h1, hr⟩

theorem writeRecipe_iff {p : List Byte} {r : Recipe} (hr : r.InRange) (hle : 2 ≤ p.length) :
    p.drop 2 = beBytes 1 1 ++ writeRecipe r ↔ r.CarriedBy p := by
  obtain ⟨⟨hname, -⟩, hfraction, halpha, hbase, hgain, htrim, hband, hcheck, hpersist, hcount, hitems⟩ := hr
  have hethanol : boolNum r.ethanolControlled < 256 := by cases r.ethanolControlled <;> decide
  have hall : ∀ x ∈ r.additives, ∀ o s, p.drop o = writeAdditive x ++ s ↔
      o + 8 ≤ p.length ∧ x.CarriedAt p o ∧ p.drop (o + 8) = s := fun x hx o s =>
    AdditiveItem.drop_iff (hitems x hx).1.2 (hitems x hx).2.1.2 (hitems x hx).2.2.2
  have hbool : boolNum r.ethanolControlled = if r.ethanolControlled then 1 else 0 := rfl
  unfold writeRecipe Recipe.CarriedBy
  dsimp only
  simp only [List.append_assoc]
  rw [drop_eq_byte_iff (by decide), drop_eq_byte_iff (by omega), drop_eq_append_iff,
    drop_eq_field_iff (by decide) (by omega), drop_eq_byte_iff hethanol, drop_eq_field_iff (by decide) (by omega),
    drop_eq_field_iff (by decide) (by omega), drop_eq_field_iff (by decide) (by omega),
    drop_eq_field_iff (by decide) (by omega), drop_eq_field_iff (by decide) (by omega),
    drop_eq_field_iff (by decide) (by omega), drop_eq_field_iff (by decide) (by omega), drop_eq_byte_iff (by omega), hbool]
  generalize r.name.length = n at *
  have hadd : ∀ i j k, i + k = j → i + n + k = j + n := fun i j k h => by omega
  rw [show 2 + 1 + 1 = 4 from rfl, show 2 + 1 = 3 from rfl, hadd 4 6 2 rfl, hadd 6 7 1 rfl, hadd 7 9 2 rfl,
    hadd 9 11 2 rfl, hadd 11 13 2 rfl, hadd 13 15 2 rfl, hadd 15 17 2 rfl, hadd 17 19 2 rfl, hadd 19 21 2 rfl,
    hadd 21 22 1 rfl]
  constructor
  · rintro ⟨-, hmark, -, hn, hbytes, -, h1, -, h2, -, h3, -, h4, -, h5, -, h6, -, h7, -, h8, -, h9, hlast, hlist, hrest⟩
    obtain ⟨hlength, hcarried⟩ := (drop_eq_flatMap_iff _ hall hlast).1 hrest
    exact ⟨hlength, hmark, hn, hbytes, ⟨h1, h2, h3, h4, h5, h6, h7, h8, h9⟩, hlist, hcarried⟩
  · rintro ⟨hlength, hmark, hn, hbytes, ⟨h1, h2, h3, h4, h5, h6, h7, h8, h9⟩, hlist, hcarried⟩
    exact ⟨by omega, hmark, by omega, hn, hbytes, by omega, h1, by omega, h2, by omega, h3, by omega, h4, by omega, h5,
      by omega, h6, by omega, h7, by omega, h8, by omega, h9, by omega, hlist,
      (drop_eq_flatMap_iff _ hall (by omega)).2 ⟨hlength, hcarried⟩⟩

theorem writeArmEntry_iff {p : List Byte} {e : ArmEntry} (he : e.InRange) :
    p.drop 2 = writeArmEntry e ↔ e.CarriedBy p := by
  obtain ⟨⟨-, hk1⟩, ⟨-, hk2⟩, hwild, hctrl, hlow, hhigh, ⟨-, hramp⟩, hstart, htop, hinitial, hmax, hover⟩ := he
  have henabled : boolNum e.enabled < 256 := by cases e.enabled <;> decide
  have hlane := e.settings.lane.isLt
  have hc1 := e.wildCurve.isLt
  have hc2 := e.ctrlCurve.isLt
  have hbool : boolNum e.enabled = if e.enabled then 1 else 0 := rfl
  have hnil : writeArmEntry e = writeArmEntry e ++ [] := (List.append_nil _).symm
  rw [hnil]
  unfold writeArmEntry ArmEntry.CarriedBy
  simp only [List.append_assoc]
  rw [drop_eq_byte_iff henabled, drop_eq_field_iff (by decide) (by omega), drop_eq_field_iff (by decide) (by omega),
    drop_eq_field_iff (by decide) (by omega), drop_eq_byte_iff (by omega), drop_eq_byte_iff (by omega),
    drop_eq_field_iff (by decide) (by omega), drop_eq_field_iff (by decide) (by omega),
    drop_eq_field_iff (by decide) (by omega), drop_eq_field_iff (by decide) (by omega),
    drop_eq_field_iff (by decide) (by omega), drop_eq_field_iff (by decide) (by omega),
    drop_eq_field_iff (by decide) (by omega), drop_eq_field_iff (by decide) (by omega),
    drop_eq_field_iff (by decide) (by omega), drop_eq_field_iff (by decide) (by omega), hbool]
  constructor
  · rintro ⟨-, h1, -, h2, -, h3, -, h4, -, h5, -, h6, -, h7, -, h8, -, h9, -, h10, -, h11, -, h12, -, h13, -, h14, -, h15,
      hle', h16, hend⟩
    exact ⟨(drop_eq_nil_iff_of_le hle').1 hend, h1, h2, h3, h4, h5, h6, h7, h8, h9, h10, h11, h12, h13, h14, h15, h16⟩
  · rintro ⟨hlength, h1, h2, h3, h4, h5, h6, h7, h8, h9, h10, h11, h12, h13, h14, h15, h16⟩
    refine ⟨by omega, h1, by omega, h2, by omega, h3, by omega, h4, by omega, h5, by omega, h6, by omega, h7, by omega,
      h8, by omega, h9, by omega, h10, by omega, h11, by omega, h12, by omega, h13, by omega, h14, by omega, h15,
      by omega, h16, (drop_eq_nil_iff_of_le (by omega)).2 hlength⟩

theorem writeConfig_iff {p : List Byte} {d : DeviceConfig} (hd : d.InRange) :
    p.drop 2 = beBytes 2 d.periodMs ++ (beBytes 2 d.slotCount ++ (beBytes 2 d.linkLossLimit ++ (beBytes 2 d.tempHoldLimit ++
      (beBytes 2 d.startWindow ++ (beBytes 2 d.holdLimitS ++ (beBytes 2 d.settleLimit ++
      (beBytes 2 d.unauthorizedL ++ []))))))) ↔ d.CarriedBy p := by
  obtain ⟨hperiod, hcount, ⟨-, h3⟩, ⟨-, h4⟩, ⟨-, h5⟩, ⟨-, h6⟩, ⟨-, h7⟩, -, h8⟩ := hd
  unfold DeviceConfig.CarriedBy
  rw [drop_eq_field_iff (by decide) (by omega), drop_eq_field_iff (by decide) (by omega),
    drop_eq_field_iff (by decide) (by omega), drop_eq_field_iff (by decide) (by omega),
    drop_eq_field_iff (by decide) (by omega), drop_eq_field_iff (by decide) (by omega),
    drop_eq_field_iff (by decide) (by omega), drop_eq_field_iff (by decide) (by omega)]
  constructor
  · rintro ⟨-, h1, -, h2, -, h3, -, h4, -, h5, -, h6, -, h7, hle', h8, hend⟩
    exact ⟨(drop_eq_nil_iff_of_le hle').1 hend, h1, h2, h3, h4, h5, h6, h7, h8⟩
  · rintro ⟨hlength, h1, h2, h3, h4, h5, h6, h7, h8⟩
    exact ⟨by omega, h1, by omega, h2, by omega, h3, by omega, h4, by omega, h5, by omega, h6, by omega, h7, by omega,
      h8, (drop_eq_nil_iff_of_le (by omega)).2 hlength⟩

theorem writeProtection_iff {p : List Byte} {r : Protection} :
    p.drop 2 = beBytes 1 r.range.val ++ (beBytes 1 (boolNum r.top) ++ (beBytes 1 (boolNum r.complement) ++
      (beBytes 1 r.mode.code ++ []))) ↔ r.CarriedBy p := by
  have hrange := r.range.isLt
  have hbool : ∀ b, boolNum b < 256 := by decide
  have hmode : r.mode.code < 256 := by cases r.mode <;> decide
  have hcode : r.mode.code = match r.mode with
      | .modeOpen => 0 | .switched => 1 | .lockedToRestart => 2 | .permanent => 3 := by
    cases r.mode <;> rfl
  unfold Protection.CarriedBy
  rw [drop_eq_byte_iff (by omega), drop_eq_byte_iff (hbool _), drop_eq_byte_iff (hbool _), drop_eq_byte_iff hmode, hcode]
  constructor
  · rintro ⟨-, h1, -, h2, -, h3, hle', h4, hend⟩
    exact ⟨(drop_eq_nil_iff_of_le hle').1 hend, h1, h2, h3, h4⟩
  · rintro ⟨hlength, h1, h2, h3, h4⟩
    exact ⟨by omega, h1, by omega, h2, by omega, h3, by omega, h4, (drop_eq_nil_iff_of_le (by omega)).2 hlength⟩

/-- A payload carries a content in range exactly when it is its encoding. -/
theorem carriedBy_iff_eq_encode {p : List Byte} {c : Content} (hc : c.InRange) : c.CarriedBy p ↔ p = encodeContent c := by
  have hflat : ∀ {α : Type} {n : Nat} {enc : α → List Byte} {w : Nat} {C : α → Nat → Prop} (t : Vector α n),
      (∀ x ∈ t.toList, ∀ o r, p.drop o = enc x ++ r ↔ o + w ≤ p.length ∧ C x o ∧ p.drop (o + w) = r) → 2 ≤ p.length →
      (p.drop 2 = t.toList.flatMap enc ↔ p.length = 2 + w * n ∧ ∀ i : Fin n, C t[i] (2 + w * i.val)) := by
    intro α n enc w C t hC hle
    rw [drop_eq_flatMap_iff _ hC hle, vector_forall_iff t (fun k x => C x (2 + w * k)), Vector.length_toList]
  rcases c with ⟨i, _ | r⟩ | ⟨i, points⟩ | ⟨a, e⟩ | t | ⟨a, t⟩ | d | r <;> dsimp only [encodeContent]
  · have hi := i.isLt
    rw [show [0, BitVec.ofNat 8 i.val, 0] = [BitVec.ofNat 8 0, BitVec.ofNat 8 i.val] ++ (beBytes 1 0 ++ []) from rfl,
      eq_target_append_iff (by decide) (by omega), drop_eq_byte_iff (by decide)]
    constructor
    · rintro ⟨h0, h1, h2, hl⟩
      exact ⟨by omega, h0, h1, by omega, h2, (drop_eq_nil_iff_of_le (by omega)).2 hl⟩
    · rintro ⟨-, h0, h1, hle, h2, hend⟩
      exact ⟨h0, h1, h2, (drop_eq_nil_iff_of_le hle).1 hend⟩
  · have hi := i.isLt
    rw [show [0, BitVec.ofNat 8 i.val, 1] ++ writeRecipe r =
        [BitVec.ofNat 8 0, BitVec.ofNat 8 i.val] ++ (beBytes 1 1 ++ writeRecipe r) from rfl,
      eq_target_append_iff (by decide) (by omega)]
    constructor
    · rintro ⟨h0, h1, h⟩
      have hle : 2 ≤ p.length := by have := h.1; omega
      exact ⟨hle, h0, h1, (writeRecipe_iff hc hle).2 h⟩
    · rintro ⟨hle, h0, h1, h⟩
      exact ⟨h0, h1, (writeRecipe_iff hc hle).1 h⟩
  · have hi := i.isLt
    obtain ⟨hcount, hpoints, -⟩ := hc
    have hall : ∀ q ∈ points, ∀ o r, p.drop o = beBytes 2 q.flow ++ beBytes 4 q.factor ++ r ↔
        o + 6 ≤ p.length ∧ (numAt p o 2 = q.flow ∧ numAt p (o + 2) 4 = q.factor) ∧ p.drop (o + 6) = r := fun q hq o r =>
      CurvePoint.drop_iff (hpoints q hq).1 (hpoints q hq).2.2
    have hoff : ∀ k, 3 + 6 * k + 2 = 5 + 6 * k := fun k => by omega
    rw [List.append_assoc, show [1, BitVec.ofNat 8 i.val] = [BitVec.ofNat 8 1, BitVec.ofNat 8 i.val] from rfl,
      eq_target_append_iff (by decide) (by omega), drop_eq_byte_iff (by omega)]
    constructor
    · rintro ⟨h0, h1, hl, h2, h⟩
      refine ⟨by omega, h0, h1, by omega, h2, (drop_eq_flatMap_iff _ hall (by omega)).2 ⟨hl, fun k q hk => ?_⟩⟩
      rw [hoff]
      exact h k q hk
    · rintro ⟨-, h0, h1, hle, h2, h⟩
      obtain ⟨hl, hq⟩ := (drop_eq_flatMap_iff _ hall hle).1 h
      refine ⟨h0, h1, hl, h2, fun k q hk => ?_⟩
      rw [← hoff]
      exact hq k q hk
  · have ha := a.isLt
    rw [show [2, BitVec.ofNat 8 a.val] = [BitVec.ofNat 8 2, BitVec.ofNat 8 a.val] from rfl,
      eq_target_append_iff (by decide) (by omega)]
    constructor
    · rintro ⟨h0, h1, h⟩
      have hle : 2 ≤ p.length := by have := h.1; omega
      exact ⟨hle, h0, h1, (writeArmEntry_iff hc).2 h⟩
    · rintro ⟨hle, h0, h1, h⟩
      exact ⟨h0, h1, (writeArmEntry_iff hc).1 h⟩
  · have hslot := hflat (enc := fun e => beBytes 1 e.arm.val ++ beBytes 1 e.role.code) (w := 2)
      (C := fun e o => byteAt p o = e.arm.val ∧ byteAt p (o + 1) = e.role.number) t (fun _ _ _ _ => SlotEntry.drop_iff)
    have hoff : ∀ k, 2 + 2 * k + 1 = 3 + 2 * k := fun k => by omega
    simp only [hoff] at hslot
    rw [show [3, 0] = [BitVec.ofNat 8 3, BitVec.ofNat 8 0] from rfl, eq_target_append_iff (by decide) (by decide)]
    constructor
    · rintro ⟨h0, h1, hl, h⟩
      exact ⟨by omega, h0, h1, (hslot (by omega)).2 ⟨hl, h⟩⟩
    · rintro ⟨hle, h0, h1, h⟩
      obtain ⟨hl, h⟩ := (hslot hle).1 h
      exact ⟨h0, h1, hl, h⟩
  · have ha := a.isLt
    have hbyte : ∀ x : Option (Fin 64), aliasByte x < 256 := fun x => by
      cases x with
      | none => decide
      | some i => have := i.isLt; simp only [aliasByte]; omega
    have halias := hflat (enc := fun x => beBytes 1 (aliasByte x)) (w := 1) (C := fun x o => byteAt p o = aliasByte x) t
      (fun x _ _ _ => drop_eq_byte_iff (hbyte x))
    simp only [Nat.one_mul] at halias
    have hread : ∀ x : Option (Fin 64), aliasByte x = match x with | none => 255 | some i => i.val := fun x => by
      cases x <;> rfl
    simp only [hread] at halias
    rw [show [4, BitVec.ofNat 8 a.val] = [BitVec.ofNat 8 4, BitVec.ofNat 8 a.val] from rfl,
      eq_target_append_iff (by decide) (by omega)]
    constructor
    · rintro ⟨h0, h1, hl, h⟩
      exact ⟨by omega, h0, h1, (halias (by omega)).2 ⟨hl, h⟩⟩
    · rintro ⟨hle, h0, h1, h⟩
      obtain ⟨hl, h⟩ := (halias hle).1 h
      exact ⟨h0, h1, hl, h⟩
  · simp only [List.append_assoc]
    rw [show [5, 0] = [BitVec.ofNat 8 5, BitVec.ofNat 8 0] from rfl, ← List.append_nil (beBytes 2 d.unauthorizedL),
      eq_target_append_iff (by decide) (by decide)]
    constructor
    · rintro ⟨h0, h1, h⟩
      have hle : 2 ≤ p.length := by have := h.1; omega
      exact ⟨hle, h0, h1, (writeConfig_iff hc).2 h⟩
    · rintro ⟨hle, h0, h1, h⟩
      exact ⟨h0, h1, (writeConfig_iff hc).1 h⟩
  · simp only [List.append_assoc]
    rw [show [6, 0] = [BitVec.ofNat 8 6, BitVec.ofNat 8 0] from rfl, ← List.append_nil (beBytes 1 r.mode.code),
      eq_target_append_iff (by decide) (by decide)]
    constructor
    · rintro ⟨h0, h1, h⟩
      have hle : 2 ≤ p.length := by have := h.1; omega
      exact ⟨hle, h0, h1, writeProtection_iff.2 h⟩
    · rintro ⟨hle, h0, h1, h⟩
      exact ⟨h0, h1, writeProtection_iff.1 h⟩

/-- The encoding of a content in range carries it, has the right length and decodes to it. -/
theorem Content.InRange.encode {c : Content} (hc : c.InRange) :
    c.CarriedBy (encodeContent c) ∧ storeLengthRight (encodeContent c) ∧ decodeContent (encodeContent c) = some c := by
  have hcarried := (carriedBy_iff_eq_encode (p := encodeContent c) hc).2 rfl
  exact ⟨hcarried, hcarried.lengthRight, (decodeContent_eq_some hcarried.lengthRight).2 ⟨hc, hcarried⟩⟩

/-- Settles O13: a payload carries a content exactly when it is its encoding, and exactly when it is read as it. -/
theorem contentRoundTrips : Obligations.ContentRoundTrips :=
  ⟨fun _ hc => ⟨fun _ => carriedBy_iff_eq_encode hc, hc.encode.2.2, hc.encode.2.1⟩,
   fun _ hright _ => decodeContent_eq_some hright, fun _ => rfl⟩

end Sys2Proof.Machine
end

section
/-! PROOFS. What a reset loads from the array and restores from the save copies (R144, R146, R147). -/

namespace Sys2Proof.Machine

/-! ## Loading the entries -/

/-- What passes the check of an entry (R146, R147). -/
theorem unsealContent_eq_some {k : EntryKey} {bytes : List Byte} {c : Content} :
    unsealContent k bytes = some c ↔
      c.InRange ∧ c.key = k ∧ ∃ body, c.CarriedBy body ∧ bytes = body ++ checkBytes body := by
  have hlength : ∀ body : List Byte, (body ++ checkBytes body).length = body.length + 2 := fun body => by
    simp [checkBytes]
  unfold unsealContent
  dsimp only
  constructor
  · intro h
    split_ifs at h with hcheck
    obtain ⟨-, hsealed, hright⟩ := hcheck
    split at h
    · next c' hd =>
      split_ifs at h with hkey
      cases h
      have hright := (storeLengthRight_iff _).2 (beq_iff_eq.1 hright)
      obtain ⟨hrange, hcarried⟩ := (decodeContent_eq_some hright).1 hd
      exact ⟨hrange, hkey, _, hcarried, by rw [hsealed, List.take_append_drop]⟩
    · cases h
  · rintro ⟨hrange, hkey, body, hcarried, rfl⟩
    have hright := hcarried.lengthRight
    have hd := (decodeContent_eq_some hright).2 ⟨hrange, hcarried⟩
    have hok : contentLengthOk body = true := by simpa [contentLengthOk] using (storeLengthRight_iff _).1 hright
    rw [hlength, Nat.add_sub_cancel, List.take_left, List.drop_left, if_pos ⟨by omega, rfl, hok⟩, hd]
    exact if_pos hkey

/-- The value of an entry never written (R147). -/
def EntryKey.blankContent : EntryKey → Content
  | .recipe i => .recipe i none
  | .curve i => .curve i []
  | .armEntry a => .armEntry a ArmEntry.cleared
  | .slotTable => .slotTable blankSlotTable
  | .aliasTable a => .aliasTable a blankAliasTable
  | .config => .config DeviceConfig.defaults
  | .protection => .protection Protection.blank

/-- The value of an entry that could not be read (R147). -/
def EntryKey.fallbackContent (k : EntryKey) : Content :=
  match k with
  | .protection => .protection Protection.fallback
  | _ => k.blankContent

/-- The working copy and the flags that an entry loads with (R147). -/
def Loaded.reads (k : EntryKey) : Loaded → Content × Bool × Bool
  | .stored c => (c, false, false)
  | .failed => (k.fallbackContent, false, true)
  | .blank => (k.blankContent, false, false)

theorem Tables.load_recipes (nv : NvTables) (i : Fin 64) : (Tables.load nv).recipes[i] = loadRecipe nv.recipes[i] i :=
  Vector.getElem_ofFn i.isLt

theorem Tables.load_curves (nv : NvTables) (i : Fin 16) : (Tables.load nv).curves[i] = loadCurve nv.curves[i] i :=
  Vector.getElem_ofFn i.isLt

theorem Tables.load_arms (nv : NvTables) (a : Fin 8) : (Tables.load nv).arms[a] = loadArmEntry nv.arms[a] a :=
  Vector.getElem_ofFn a.isLt

theorem Tables.load_aliases (nv : NvTables) (a : Fin 8) : (Tables.load nv).aliases[a] = loadAliasTable nv.aliases[a] a :=
  Vector.getElem_ofFn a.isLt

theorem Tables.load_reads (nv : NvTables) (k : EntryKey) :
    ((Tables.load nv).content k, (Tables.load nv).flags k) = ((nv.get k).loaded k).reads k := by
  have hkey : ∀ c, (nv.get k).loaded k = .stored c → c.key = k := fun c h => (NvEntry.loaded_stored h).2
  cases k <;> unfold Tables.content Tables.flags NvTables.get at * <;> dsimp only at *
  case' recipe i => rw [Tables.load_recipes, loadRecipe]
  case' curve i => rw [Tables.load_curves, loadCurve]
  case' armEntry a => rw [Tables.load_arms, loadArmEntry]
  case' slotTable => rw [Tables.load, loadSlotTable]
  case' aliasTable a => rw [Tables.load_aliases, loadAliasTable]
  case' config => rw [Tables.load, loadConfig]
  case' protection => rw [Tables.load, loadProtection]
  all_goals
    generalize NvEntry.loaded _ _ = l at *
    rcases l with _ | c | _
    · rfl
    · cases c <;> cases hkey _ rfl
      rfl
    · rfl

/-- What a reset loads for an entry, by what the torn array holds for it (R147, R153). -/
theorem State.resetPart_reads (s : State) (k : EntryKey) :
    (s.resetPart.tables.content k, s.resetPart.tables.flags k) = ((s.torn.tables.get k).loaded k).reads k :=
  Tables.load_reads s.torn.tables k

theorem NvEntry.loaded_of_seal {k : EntryKey} {bytes : List Byte} {c : Content} (h : unsealContent k bytes = some c) :
    (NvEntry.written bytes).loaded k = .stored c := by
  unfold NvEntry.loaded
  dsimp only
  rw [h]

theorem NvEntry.loaded_of_not_seal {k : EntryKey} {bytes : List Byte} (h : ∀ c, unsealContent k bytes ≠ some c) :
    (NvEntry.written bytes).loaded k = .failed := by
  unfold NvEntry.loaded
  dsimp only
  rw [Option.eq_none_iff_forall_ne_some.2 h]

/-! ## What was completed survives -/

theorem unsealContent_sealContent {c : Content} (hc : c.InRange) : unsealContent c.key (sealContent c) = some c :=
  unsealContent_eq_some.2 ⟨hc, rfl, _, hc.encode.1, rfl⟩

/-- The operation that follows a completed commit in a good queue is no commit (R152). -/
theorem StoreCtl.QueueGood.no_second_commit {st : StoreCtl} {c : Content} (h : st.QueueGood)
    (hu : st.underWay = some (.commit c)) (c' : Content) : .commit c' ∉ st.queue := by
  obtain ⟨-, -, hcount⟩ := h
  rw [hu] at hcount
  intro hmem
  have hpos : 0 < commitsIn st.queue := List.countP_pos_iff.2 ⟨_, hmem, rfl⟩
  have hone : commitUnderWay (some (.commit c)) = 1 := rfl
  split at hcount <;> omega

/-- Settles O6: the completed write is what the next reset loads, and nothing under way tears it. -/
theorem completedWritesSurviveReset : Obligations.CompletedWritesSurviveReset := by
  constructor
  · intro s c hpow hgood hu hc
    have hpow' : (s.finishCommit c true).beginNext.powered = true := by
      rw [State.beginNext_eq]
      exact hpow
    refine ⟨_, _, exec_commitComplete hpow hu true, exec_rst hpow', ?_⟩
    have hunder : ∀ c', (s.finishCommit c true).beginNext.store.underWay ≠ some (.commit c') := fun c' hu' => by
      have ⟨hnone, hcommit, hsave⟩ := (s.finishCommit c true).beginNext_begins
      cases hq : s.store.queue with
      | nil => rw [hnone.2 hq] at hu'; cases hu'
      | cons op rest =>
        cases op with
        | commit c2 => exact hgood.no_second_commit hu c2 (hq ▸ List.mem_cons_self)
        | save b =>
          obtain ⟨d, im, hd, -⟩ := hsave b rest hq
          rw [hd] at hu'
          cases hu'
    have hget : (s.finishCommit c true).beginNext.torn.tables.get c.key = .written (sealContent c) := by
      rw [State.torn_tables]
      split
      · next h => exact absurd h (hunder _)
      · rw [State.beginNext_nv]
        exact (NvTables.get_put _ _ _ _).trans (if_pos rfl)
    have hreads := (s.finishCommit c true).beginNext.resetPart_reads c.key
    rw [hget, NvEntry.loaded_of_seal (unsealContent_sealContent hc)] at hreads
    exact ⟨congrArg Prod.fst hreads, congrArg Prod.snd hreads⟩
  · intro s a c image hpow hu hqueue hnewer
    have hpow' : (s.finishSave a c image true).beginNext.powered = true := by
      rw [State.beginNext_eq]
      exact hpow
    have hunder : (s.finishSave a c image true).beginNext.store.underWay = none :=
      (s.finishSave a c image true).beginNext_begins.1.2 hqueue
    refine ⟨_, _, exec_saveComplete hpow hu true, ?_, hunder, exec_rst hpow', ?_⟩
    · rw [State.beginNext_eq]
      rfl
    · have hsaves : ∀ d, (s.finishSave a c image true).beginNext.torn.saves[a].get d =
          if d = c then .holds image else s.nv.saves[a].get d := fun d => by
        rw [State.torn_saves, hunder]
        dsimp only
        rw [State.beginNext_nv]
        refine (Nonvolatile.saves_putSave _ _ _ _ _ _).trans ?_
        simp
      have hother : ¬ (1 - c = c) := by fin_cases c <;> decide
      obtain ⟨hwild, hctrl⟩ := SaveEntry.totals_of_newer (c := c) ((hsaves c).trans (if_pos rfl)) fun other h =>
        hnewer other (by rwa [hsaves, if_neg hother] at h)
      rw [← hwild, ← hctrl]
      obtain ⟨-, hmeter, -⟩ := (s.finishSave a c image true).beginNext.restart_reads true
        (s.finishSave a c image true).beginNext.torn
      exact ⟨congrArg Meter.totals (hmeter a .wild), congrArg Meter.totals (hmeter a .ctrl)⟩

/-! ## What a reset loads and restores -/

/-- The commit of an entry is under way: a reset tears it (R153). -/
def State.tears (s : State) (k : EntryKey) : Prop := ∃ c, s.store.underWay = some (.commit c) ∧ c.key = k

theorem State.torn_tables_of_torn {s : State} {k : EntryKey} (h : s.tears k) : s.torn.tables.get k = .failing := by
  obtain ⟨c, hu, hk⟩ := h
  rw [State.torn_tables, hu]
  exact if_pos hk

theorem State.torn_tables_of_kept {s : State} {k : EntryKey} (h : ¬ s.tears k) :
    s.torn.tables.get k = s.nv.tables.get k := by
  rw [State.torn_tables]
  split
  · next c hu => exact if_neg fun hk => h ⟨c, hu, hk⟩
  · rfl

/-- A copy passes after a reset: it held an image and no save of it was under way (R144, R153). -/
theorem State.torn_holds_iff (s : State) (a : Fin 8) (d : Fin 2) (image : SaveImage) :
    s.torn.saves[a].get d = .holds image ↔
      s.nv.saves[a].get d = .holds image ∧ ∀ im, s.store.underWay ≠ some (.save a d im) := by
  rw [State.torn_saves]
  split
  · next b c im hu =>
    split_ifs with hsame
    · obtain ⟨rfl, rfl⟩ := hsame
      exact ⟨nofun, fun h => absurd hu (h.2 im)⟩
    · refine (and_iff_left fun im' h => hsame ?_).symm
      rw [hu] at h
      cases h
      exact ⟨rfl, rfl⟩
  · next hu => exact (and_iff_left fun im h => hu a d im h).symm

/-- A copy was written, or a save of it was under way (R144, R153). -/
theorem State.torn_written_iff (s : State) (a : Fin 8) (d : Fin 2) :
    s.torn.saves[a].get d ≠ .unwritten ↔
      s.nv.saves[a].get d ≠ .unwritten ∨ ∃ im, s.store.underWay = some (.save a d im) := by
  rw [State.torn_saves]
  split
  · next b c im hu =>
    split_ifs with hsame
    · obtain ⟨rfl, rfl⟩ := hsame
      exact ⟨fun _ => .inr ⟨im, hu⟩, fun _ => nofun⟩
    · refine (or_iff_left ?_).symm
      rintro ⟨im', h⟩
      rw [hu] at h
      cases h
      exact hsame ⟨rfl, rfl⟩
  · next hu => exact (or_iff_left fun ⟨im, h⟩ => hu a d im h).symm

/-- The copies of an entry that a restore finds (R144). -/
theorem SaveEntry.chosen_both {e : SaveEntry} {x y : SaveImage} (hx : e.get 0 = .holds x) (hy : e.get 1 = .holds y) :
    e.chosen = if y.seq = (x.seq + 1) % Config.counterModulus then some 1
      else if x.seq = (y.seq + 1) % Config.counterModulus then some 0 else if x.seq < y.seq then some 1 else some 0 := by
  obtain ⟨copy0, copy1⟩ := e
  replace hx : copy0 = .holds x := hx
  replace hy : copy1 = .holds y := hy
  subst hx hy
  rfl

theorem SaveEntry.chosen_one {e : SaveEntry} {d : Fin 2} {image : SaveImage} (hd : e.get d = .holds image)
    (honly : ∀ d' other, d' ≠ d → e.get d' ≠ .holds other) : e.chosen = some d := by
  obtain ⟨copy0, copy1⟩ := e
  fin_cases d
  · replace hd : copy0 = .holds image := hd
    subst hd
    cases copy1 with
    | holds other => exact absurd rfl (honly 1 other (by decide))
    | unwritten | failing => rfl
  · replace hd : copy1 = .holds image := hd
    subst hd
    cases copy0 with
    | holds other => exact absurd rfl (honly 0 other (by decide))
    | unwritten | failing => rfl

theorem SaveEntry.chosen_eq_none {e : SaveEntry} : e.chosen = none ↔ ∀ d image, e.get d ≠ .holds image := by
  constructor
  · intro h d image hd
    by_cases hother : ∃ d' other, d' ≠ d ∧ e.get d' = .holds other
    · obtain ⟨d', other, hne, hd'⟩ := hother
      fin_cases d <;> fin_cases d'
      · exact hne rfl
      · rw [SaveEntry.chosen_both hd hd'] at h
        split_ifs at h
      · rw [SaveEntry.chosen_both hd' hd] at h
        split_ifs at h
      · exact hne rfl
    · rw [SaveEntry.chosen_one hd fun d' other hne hd' => hother ⟨d', other, hne, hd'⟩] at h
      cases h
  · intro h
    obtain ⟨copy0, copy1⟩ := e
    cases copy0 with
    | holds x => exact absurd rfl (h 0 x)
    | unwritten | failing =>
      cases copy1 with
      | holds y => exact absurd rfl (h 1 y)
      | unwritten | failing => rfl

theorem SaveEntry.broken_iff (e : SaveEntry) :
    e.broken = true ↔ ∃ d, e.get d ≠ .unwritten ∧ ∀ d' image, e.get d' ≠ .holds image := by
  have hwritten : ((e.copy0 == .unwritten && e.copy1 == .unwritten) = false) ↔ ∃ d, e.get d ≠ .unwritten := by
    rw [Fin.exists_fin_two, ← Bool.not_eq_true, Bool.and_eq_true, beq_iff_eq, beq_iff_eq, not_and_or]
    rfl
  unfold SaveEntry.broken
  rw [Bool.and_eq_true, Option.isNone_iff_eq_none, SaveEntry.chosen_eq_none, Bool.not_eq_true', hwritten,
    exists_and_right, and_comm]

/-- The totals of the copy that a restore uses (R144). -/
theorem SaveEntry.totals_of_chosen {e : SaveEntry} {d : Fin 2} {image : SaveImage} (hchosen : e.chosen = some d)
    (hd : e.get d = .holds image) : e.totals .wild = image.wild ∧ e.totals .ctrl = image.ctrl := by
  unfold SaveEntry.totals
  rw [hchosen]
  dsimp only
  rw [hd]
  exact ⟨rfl, rfl⟩

/-- Settles O5: an entry loads what the torn array holds for it, an arm's totalizers are those of the chosen copy. -/
theorem entriesLoad : Obligations.EntriesLoad := by
  constructor
  · intro s k hpow torn holds blank fallback
    have hblank : k.blankContent = blank := by cases k <;> rfl
    have hfallback : k.fallbackContent = fallback := by cases k <;> rfl
    have hreads := s.resetPart_reads k
    refine ⟨_, exec_rst hpow, fun bytes c hkept hget hholds => ?_, fun hkept hget => ?_, fun h => ?_⟩
    · rw [State.torn_tables_of_kept hkept, hget, NvEntry.loaded_of_seal (unsealContent_eq_some.2 hholds)] at hreads
      exact ⟨congrArg Prod.snd hreads, congrArg Prod.fst hreads⟩
    · rw [State.torn_tables_of_kept hkept, hget] at hreads
      exact ⟨congrArg Prod.snd hreads, hblank ▸ congrArg Prod.fst hreads⟩
    · have hfailed : (s.torn.tables.get k).loaded k = .failed := by
        by_cases ht : s.tears k
        · rw [State.torn_tables_of_torn ht]
          rfl
        · rw [State.torn_tables_of_kept ht]
          obtain h | h | ⟨bytes, h, hnot⟩ := h
          · exact absurd h ht
          · rw [h]
            rfl
          · rw [h]
            exact NvEntry.loaded_of_not_seal fun c hc => hnot c (unsealContent_eq_some.1 hc)
      rw [hfailed] at hreads
      exact ⟨congrArg Prod.snd hreads, hfallback ▸ congrArg Prod.fst hreads⟩
  · intro s hpow
    refine ⟨_, exec_rst hpow, ?_⟩
    have hlatest : ∀ a : Fin 8, s.resetPart.store.latest[a] = s.torn.saves[a].chosen := fun a =>
      Vector.getElem_ofFn a.isLt
    obtain ⟨-, hmeter, -⟩ := s.restart_reads true s.torn
    have htotals : ∀ a p, (s.resetPart.meter a p).totals = s.torn.saves[a].totals p := fun a p =>
      congrArg Meter.totals (hmeter a p)
    have hrestored : ∀ (a : Fin 8) {d image}, s.torn.saves[a].chosen = some d → s.torn.saves[a].get d = .holds image →
        s.resetPart.store.latest[a] = some d ∧ (s.resetPart.meter a .wild).totals = image.wild ∧
          (s.resetPart.meter a .ctrl).totals = image.ctrl := fun a d image hchosen hd => by
      rw [hlatest, htotals, htotals]
      exact ⟨hchosen, SaveEntry.totals_of_chosen hchosen hd⟩
    intro passes written
    have hpasses : ∀ a d image, passes a d image ↔ s.torn.saves[a].get d = .holds image := fun a d image =>
      (s.torn_holds_iff a d image).symm
    have hwritten : ∀ a d, written a d ↔ s.torn.saves[a].get d ≠ .unwritten := fun a d =>
      (s.torn_written_iff a d).symm
    simp only [hpasses, hwritten]
    refine ⟨?_, fun a => ⟨fun x y hx hy => ?_, fun d image hd honly => ?_, fun h => ?_⟩⟩
    · simp only [← SaveEntry.broken_iff]
      exact allArms_any fun a => s.torn.saves[a].broken
    · have hchosen := SaveEntry.chosen_both hx hy
      refine ⟨fun h => ?_, fun h => ?_, fun h1 h2 => ⟨fun h => ?_, fun h => ?_⟩⟩
      · exact hrestored a (hchosen.trans (if_pos h)) hy
      · have hnot : ¬ y.seq = (x.seq + 1) % Config.counterModulus := by
          simp only [Config.counterModulus]
          omega
        exact hrestored a (hchosen.trans ((if_neg hnot).trans (if_pos h))) hx
      · exact hrestored a (hchosen.trans ((if_neg h1).trans ((if_neg h2).trans (if_pos h)))) hy
      · exact hrestored a (hchosen.trans ((if_neg h1).trans ((if_neg h2).trans (if_neg (Nat.not_lt.2 h))))) hx
    · exact hrestored a (SaveEntry.chosen_one hd honly) hd
    · have hnone := SaveEntry.chosen_eq_none.2 h
      refine ⟨(hlatest a).trans hnone, fun p => (htotals a p).trans ?_⟩
      unfold SaveEntry.totals
      rw [hnone]
      rfl

end Sys2Proof.Machine
end

section
/-! PROOFS. Requests to the table store and the trunk: admission (R13), STORE_ENABLE and STORE_DISABLE (R149), READ_TABLE
and READ_STORE_STATUS (R158), RESET_PREPARE and RESET_DEVICE (R159), TRUNK_TEST (R36), stray words (R21). -/

namespace Sys2Proof.Machine

/-! ## Admission -/

theorem deviceByte_iff {arm : Byte} : arm.toNat = 255 ↔ arm = deviceByte := BitVec.toNat_inj (y := deviceByte)

/-- A request is turned away exactly when its payload is too long, or its row allows neither its length nor its arm field
(R13). -/
theorem Request.admitted_eq_false {code : RequestCode} {arm : Byte} {p : List Byte} :
    ({ code := code, arm := arm, payload := p } : Request).admitted = false ↔
      240 < p.length ∨ code.payloadOk p = false ∨ code.armOk arm.toNat = false := by
  simp only [Request.admitted, Bool.and_eq_false_iff, decide_eq_false_iff_not, Nat.not_le, or_assoc]

/-- Settles O20: `takeRequest` discards during a transaction; otherwise the check of R13, row by row. -/
theorem requestsTurnedAway : Obligations.RequestsTurnedAway := by
  intro s code arm p hpow
  refine ⟨fun hbusy => ?_, fun hfree hbad => ?_⟩
  · have hdiscard : s.request code arm p = { s with rack := { s.rack with discard := true } } := by
      rw [State.request, State.whenPowered, if_pos hpow]
      exact if_neg hbusy
    cases code <;> exact congrArg _ hdiscard
  · refine exec_not_admitted s code arm p ⟨hpow, hfree⟩ (Request.admitted_eq_false.2 ?_)
    refine hbad.imp_right (Or.imp (fun h => ?_) fun h => ?_)
    · have hnil : p ≠ [] → (p.length == 0) = false := fun hp => by simpa using hp
      cases code with
      | store =>
        refine beq_eq_false_iff_ne.2 fun hl => h ((storeLengthRight_iff p).2 ?_)
        exact hl
      | service =>
        simp only [RequestCode.payloadOk, inRange, Bool.and_eq_false_iff, decide_eq_false_iff_not]
        omega
      | authorize | start | readRecord | storeEnable | readTable | trunkTest => exact beq_eq_false_iff_ne.2 h
      | _ => exact hnil h
    · have hdevice : arm ≠ 255 → (arm.toNat == 255) = false := fun ha =>
        beq_eq_false_iff_ne.2 fun hn => ha (deviceByte_iff.1 hn)
      have harm : 7 < arm.toNat → decide (arm.toNat < 8) = false := fun ha => decide_eq_false (by omega)
      cases code with
      | getSense => exact Bool.or_eq_false_iff.2 ⟨harm h.1, hdevice h.2⟩
      | authorize | start | cancel | clearFault | readRecord | service => exact harm h
      | _ => exact hdevice h

/-! ## STORE_ENABLE, STORE_DISABLE, RESET_PREPARE, RESET_DEVICE -/

/-- Settles O16: the three decisions of STORE_ENABLE, and STORE_DISABLE. -/
theorem latchRequests : Obligations.LatchRequests := by
  intro s hs
  have hadmitted : ∀ m : Byte,
      ({ code := .storeEnable, arm := deviceByte, payload := [m] } : Request).admitted = true := fun _ => rfl
  have hserve : ∀ m : Byte, s.cleared.serve .storeEnable deviceByte [m] =
      match s.cleared.enableDecision m.toNat with
      | .error c => s.cleared.deny .storeEnable deviceByte c
      | .ok l => (s.cleared.modStore (fun k => { k with latch := l })).accept .storeEnable [] := fun _ => rfl
  refine ⟨fun hidle m l hm => ?_, fun hbusy m hm => ?_, fun m h0 h1 => ?_, ?_⟩
  · refine exec_accepted (code := .storeEnable) (u := { s with store := { s.store with latch := l } }) hs (hadmitted m)
      (by decide) ?_
    have hdecide : s.cleared.enableDecision m.toNat = .ok l := by
      obtain ⟨rfl, rfl⟩ | ⟨rfl, rfl⟩ := hm <;> exact if_neg hidle
    rw [hserve, hdecide]
    rfl
  · refine exec_refused (code := .storeEnable) hs (hadmitted m) nofun ?_
    have hdecide : s.cleared.enableDecision m.toNat = .error .storeBusy := by
      obtain rfl | rfl := hm <;> exact if_pos hbusy
    rw [hserve, hdecide]
  · refine exec_refused (code := .storeEnable) hs (hadmitted m) nofun ?_
    have h0' : m.toNat ≠ 0 := fun h => h0 (BitVec.toNat_inj.1 h)
    have h1' : m.toNat ≠ 1 := fun h => h1 (BitVec.toNat_inj (y := 1#8).1 h)
    have hmode : Latch.ofMode m.toNat = none := (if_neg h0').trans (if_neg h1')
    have hdecide : s.cleared.enableDecision m.toNat = .error .badField := by
      unfold State.enableDecision
      rw [hmode]
    rw [hserve, hdecide]
  · exact exec_accepted (code := .storeDisable) (u := { s with store := { s.store with latch := .clear } }) hs rfl
      (by decide) rfl

/-- The first condition of R159 that holds, if one does. -/
theorem State.resetRefusal_eq (s : State) : s.resetRefusal =
    if s.store.prepared = false then some .resetNotPrepared
    else if ∃ a, (s.arm a).state ≠ .idle ∧ (s.arm a).state ≠ .faulted then some .batchesOpen
    else if s.store.hasCommit = true then some .storeBusy else none := by
  unfold State.resetRefusal
  simp only [allArms_any, Bool.and_eq_true, bne_iff_ne]

/-- A response without a payload, concluded (R14, R159). -/
theorem State.respond_conclude (s : State) (code : RequestCode) (thenReset : Bool) :
    (s.cleared.respond code.code [] thenReset).conclude code.code false =
      { s with rack := s.rack.sendsRecord code false .none [] thenReset, store := s.store.decided code false } := by
  simp only [State.respond, State.cleared, State.conclude, State.modRack, State.modStore, StoreCtl.decided,
    RackLink.fixResponse_cleared s.rack code false .none [] thenReset (by decide), RequestCode.code_eq_store]

/-- Settles O19: the conditions of R159 in their order, and the response that ends in a reset. -/
theorem resetByRequest : Obligations.ResetByRequest := by
  intro s hs
  have hserve : s.cleared.serve .resetDevice deviceByte [] =
      match s.resetRefusal with
      | some c => s.cleared.deny .resetDevice deviceByte c
      | none => s.cleared.respond RequestCode.resetDevice.code [] true := rfl
  have hrefuse : ∀ c, s.resetRefusal = some c →
      exec (.resetDevice deviceByte []) s = .next (s.refused .resetDevice deviceByte c) := fun c hc =>
    exec_refused (code := .resetDevice) hs rfl nofun (by rw [hserve, hc])
  rw [State.resetRefusal_eq] at hserve hrefuse
  have hnone : (∀ a, (s.arm a).state = .idle ∨ (s.arm a).state = .faulted) →
      ¬ ∃ a, (s.arm a).state ≠ .idle ∧ (s.arm a).state ≠ .faulted := fun h ⟨a, hi, hf⟩ => (h a).elim hi hf
  refine ⟨exec_accepted (code := .resetPrepare) (u := s) hs rfl (by decide) rfl, fun hp => hrefuse _ (if_pos hp),
    fun hp hopen => hrefuse _ ?_, fun hp hclosed hcommit => hrefuse _ ?_, fun hp hclosed hcommit => ⟨?_, ?_⟩⟩
  · rw [if_neg (by simp [hp]), if_pos hopen]
  · rw [if_neg (by simp [hp]), if_neg (hnone hclosed), if_pos hcommit]
  · refine (exec_admitted s .resetDevice deviceByte [] hs rfl).trans (congrArg _ ?_)
    rw [hserve, if_neg (by simp [hp]), if_neg (hnone hclosed), if_neg (by simp [hcommit])]
    exact s.respond_conclude .resetDevice true
  · simp [State.sendUpstream, State.modRack, RackLink.sendsRecord, Transaction.segment]

/-! ## TRUNK_TEST -/

/-- The first condition of R36 that holds, if one does. -/
theorem State.testRefusal_eq (s : State) (n : Nat) : s.testRefusal n =
    if s.trunk.test.state = .running then some .testActive
    else if ∃ a, (s.arm a).state ≠ .idle then some .batchesOpen
    else if ∃ a : Fin 8, s.transfers[a].phase ≠ .idle then some .serviceBusy
    else if n = 0 ∨ 60000 < n then some .badField else none := by
  have hrange : inRange 1 60000 n = false ↔ n = 0 ∨ 60000 < n := by
    simp only [inRange, Bool.and_eq_false_iff, decide_eq_false_iff_not]
    omega
  unfold State.testRefusal
  simp only [allArms_any, bne_iff_ne, hrange, Transfer.inFlight]

/-- Settles O34: the conditions of R36 in their order, then the test. -/
theorem trunkTestDecided : Obligations.TrunkTestDecided := by
  intro s n hs hn p
  have hcount : numAt p 0 2 = n := by
    simp [p, numAt, slice, readBe]
    omega
  have hserve : s.cleared.serve .trunkTest deviceByte p =
      match s.testRefusal n with
      | some c => s.cleared.deny .trunkTest deviceByte c
      | none => (s.cleared.startTest n).accept .trunkTest [] := by
    rw [← hcount]
    rfl
  have hrefuse : ∀ c, s.testRefusal n = some c →
      exec (.trunkTest deviceByte p) s = .next (s.refused .trunkTest deviceByte c) := fun c hc =>
    exec_refused (code := .trunkTest) hs rfl nofun (by rw [hserve, hc])
  rw [State.testRefusal_eq] at hserve hrefuse
  split_ifs at hserve hrefuse ⊢
  · exact hrefuse _ rfl
  · exact hrefuse _ rfl
  · exact hrefuse _ rfl
  · exact hrefuse _ rfl
  · exact exec_accepted (code := .trunkTest) hs rfl (by decide) hserve

/-! ## Stray words -/

/-- Settles O29: a late word is dropped, and the close of an unassigned window only moves on to the next. -/
theorem strayWordsIgnored : Obligations.StrayWordsIgnored := by
  refine fun s w => ⟨rfl, fun i hpow hans hnext hlt hrole => ?_⟩
  have h64 : s.trunk.nextWindow < 64 := hnext ▸ i.isLt
  have hi : (⟨s.trunk.nextWindow, h64⟩ : Fin 64) = i := Fin.ext hnext
  have hslot : s.frameAssignment i = none := by
    refine if_neg fun h => h.2 hrole
  have hclose : s.closeWindow w = { s with trunk := { s.trunk with nextWindow := i.val + 1 } } := by
    rw [State.closeWindow, if_pos hans, dif_pos h64, hi, if_neg (by omega), State.closeSlot, hslot, ← hnext]
    rfl
  exact congrArg _ ((if_pos hpow).trans hclose)

/-! ## READ_TABLE, READ_STORE_STATUS -/

/-- The longest content is the slot table's. -/
theorem Content.CarriedBy.length_le {c : Content} {p : List Byte} (h : c.CarriedBy p) (hc : c.InRange) :
    2 < p.length ∧ p.length ≤ 130 := by
  unfold Content.CarriedBy at h
  rcases c with ⟨i, _ | r⟩ | ⟨i, points⟩ | ⟨a, e⟩ | t | ⟨a, t⟩ | d | r
  · obtain ⟨-, -, -, hl⟩ := h
    omega
  · obtain ⟨-, -, hl, -⟩ := h
    obtain ⟨⟨hname, -⟩, -, -, -, -, -, -, -, -, hcount, -⟩ := hc
    omega
  · obtain ⟨-, -, hl, -⟩ := h
    obtain ⟨hcount, -⟩ := hc
    omega
  · obtain ⟨-, -, hl, -⟩ := h
    omega
  · obtain ⟨-, -, hl, -⟩ := h
    omega
  · obtain ⟨-, -, hl, -⟩ := h
    omega
  · obtain ⟨-, -, hl, -⟩ := h
    omega
  · obtain ⟨-, -, hl, -⟩ := h
    omega

theorem Tables.content_key (t : Tables) (k : EntryKey) : (t.content k).key = k := by cases k <;> rfl

/-- Settles O17: READ_TABLE answers the flags and the encoding of the working copy, READ_STORE_STATUS its seven bytes. -/
theorem storeIsRead : Obligations.StoreIsRead := by
  intro s hs
  refine ⟨fun k hk => ?_, fun target index hbad => ?_, fun hops hmetro => ?_⟩
  · obtain ⟨hcarried, -, -⟩ := hk.encode
    obtain ⟨hlow, hhigh⟩ := hcarried.length_le hk
    have htarget := hcarried.target
    rw [Tables.content_key] at htarget
    refine ⟨_, hcarried, ?_⟩
    rcases hb : encodeContent (s.tables.content k) with _ | ⟨b0, _ | ⟨b1, rest⟩⟩ <;> rw [hb] at hlow hhigh htarget
    · exact absurd hlow (by simp)
    · exact absurd hlow (by simp)
    · have hkey : EntryKey.ofTarget (byteAt [b0, b1] 0) (byteAt [b0, b1] 1) = some k :=
        EntryKey.ofTarget_eq_some.2 htarget
      have hflags : field 1 (packBits [(s.tables.flags k).1, (s.tables.flags k).2]) =
          [(if (s.tables.flags k).1 then 1 else 0) + (if (s.tables.flags k).2 then 2 else 0)] := by
        cases (s.tables.flags k).1 <;> cases (s.tables.flags k).2 <;> rfl
      refine exec_accepted (code := .readTable) (u := s) hs rfl (by simp only [List.length_cons] at hhigh ⊢; omega) ?_
      rw [State.serve]
      dsimp only [List.take]
      rw [hkey]
      dsimp only [State.tablePayload]
      rw [State.cleared_tables, hflags, hb]
      rfl
  · refine exec_refused (code := .readTable) hs rfl nofun ?_
    have hnone : EntryKey.ofTarget (byteAt [target, index] 0) (byteAt [target, index] 1) = none := by
      refine Option.eq_none_iff_forall_ne_some.2 fun k hk => ?_
      obtain ⟨ht, hi⟩ := Prod.mk.inj (EntryKey.ofTarget_eq_some.1 hk)
      replace ht : target.toNat = k.target.1 := ht
      replace hi : index.toNat = k.target.2 := hi
      simp only [BitVec.toNat_eq, BitVec.reduceToNat] at hbad
      have hrange : k.target.1 ≤ 6 ∧ k.target.2 < 64 ∧ (k.target.1 = 1 → k.target.2 < 16) ∧
          (k.target.1 = 2 ∨ k.target.1 = 4 → k.target.2 < 8) ∧
          (k.target.1 = 3 ∨ k.target.1 = 5 ∨ k.target.1 = 6 → k.target.2 = 0) := by
        cases k <;> simp [EntryKey.target] <;> omega
      omega
    rw [State.serve, hnone]
  · refine exec_accepted (code := .readStoreStatus) (u := s) hs rfl (by simp) ?_
    change s.cleared.accept .readStoreStatus s.cleared.statusPayload = _
    have hcode : field 1 s.store.status.code =
        [BitVec.ofNat 8 (match s.store.status with | .idle => 0 | .busy => 1 | .failed => 2)] := by
      cases s.store.status <;> rfl
    have hfault : field 1 (boolNum s.store.saveFault) = [if s.store.saveFault then 1 else 0] := by
      cases s.store.saveFault <;> rfl
    have hlatch : field 1 s.store.latch.code =
        [BitVec.ofNat 8 (match s.store.latch with | .clear => 0 | .persist => 1 | .working => 2)] := by
      cases s.store.latch <;> rfl
    have hmode : field 1 s.tables.protection.work.mode.code =
        [BitVec.ofNat 8 (match s.tables.protection.work.mode with
          | .modeOpen => 0 | .switched => 1 | .lockedToRestart => 2 | .permanent => 3)] := by
      cases s.tables.protection.work.mode <;> rfl
    have hcounter : field 2 s.nv.metroCounter =
        [BitVec.ofNat 8 (s.nv.metroCounter / 256), BitVec.ofNat 8 s.nv.metroCounter] := by
      rw [field, if_pos (by omega)]
      simp [beBytes]
    unfold State.statusPayload
    simp only [State.cleared_store, State.cleared_nv, State.cleared_tables]
    rw [hcode, hfault, hlatch, hmode, hcounter, field_one (by omega)]
    rfl

end Sys2Proof.Machine
end

section
/-! PROOFS. The check word of R2: the register is linear, one bit step is invertible, and the check word shifts the register
out. -/

namespace Sys2Proof.Machine

theorem crc16Bit_eq (r : BitVec 16) (b : Bool) : crc16Bit r b = r <<< 1 ^^^ if r.msb != b then 0x8005#16 else 0#16 := by
  unfold crc16Bit
  split
  · rfl
  · rw [BitVec.xor_zero]

/-- The register is linear over the bits. -/
theorem crc16Bit_xor (r s : BitVec 16) (a b : Bool) :
    crc16Bit (r ^^^ s) (a ^^ b) = crc16Bit r a ^^^ crc16Bit s b := by
  have hmsb : (r ^^^ s).msb = (r.msb ^^ s.msb) := BitVec.msb_xor
  have hmask : ∀ p q : Bool, (if (p ^^ q) != (a ^^ b) then 0x8005#16 else 0#16) =
      (if p != a then 0x8005#16 else 0#16) ^^^ if q != b then 0x8005#16 else 0#16 := by
    cases a <;> cases b <;> decide
  rw [crc16Bit_eq, crc16Bit_eq, crc16Bit_eq, hmsb, BitVec.shiftLeft_xor_distrib, hmask]
  ac_rfl

theorem crc16Byte_xor (r s : BitVec 16) (x y : Byte) :
    crc16Byte (r ^^^ s) (x ^^^ y) = crc16Byte r x ^^^ crc16Byte s y := by
  simp only [crc16Byte, List.foldl, BitVec.getLsbD_xor, crc16Bit_xor]

/-- One bit step loses nothing: the low bit of its result tells the top bit that it shifted out. -/
theorem crc16Bit_injective (b : Bool) : Function.Injective fun r => crc16Bit r b := by
  intro r s h
  replace h : crc16Bit r b = crc16Bit s b := h
  have hlow : ∀ t : BitVec 16, (crc16Bit t b).getLsbD 0 = (t.msb != b) := fun t => by
    rw [crc16Bit_eq]
    cases t.msb <;> cases b <;> simp
  have hmsb : r.msb = s.msb := by
    have := (hlow r).symm.trans ((congrArg (BitVec.getLsbD · 0) h).trans (hlow s))
    revert this
    cases r.msb <;> cases s.msb <;> cases b <;> decide
  rw [crc16Bit_eq, crc16Bit_eq, hmsb, BitVec.xor_left_inj] at h
  refine BitVec.eq_of_getLsbD_eq fun i hi => ?_
  rcases Nat.lt_or_eq_of_le (Nat.lt_succ_iff.1 hi) with hlt | rfl
  · have := congrArg (BitVec.getLsbD · (i + 1)) h
    have hlt' : i + 1 < 16 := by omega
    simpa [hlt', BitVec.getLsbD_eq_getElem hi] using this
  · rwa [BitVec.msb_eq_getLsbD_last, BitVec.msb_eq_getLsbD_last] at hmsb

theorem crc16Byte_injective (x : Byte) : Function.Injective fun r => crc16Byte r x := by
  intro r s h
  simp only [crc16Byte, List.foldl] at h
  iterate 8 replace h := crc16Bit_injective _ h
  exact h

theorem crc16_foldl_injective (q : List Byte) : Function.Injective fun r => q.foldl crc16Byte r := by
  induction q with
  | nil => exact fun _ _ h => h
  | cons x q ih => exact fun r s h => crc16Byte_injective x (ih h)

/-- The register's own high byte shifts it out by 8 bits. -/
theorem crc16Byte_high (r : BitVec 16) : crc16Byte r (r.extractLsb' 8 8) = r <<< 8 := by
  have hstep : ∀ k < 8, crc16Bit (r <<< k) ((r.extractLsb' 8 8).getLsbD (7 - k)) = r <<< (k + 1) := fun k hk => by
    have hbit : (r.extractLsb' 8 8).getLsbD (7 - k) = (r <<< k).msb := by
      have hi : 8 + (7 - k) = 15 - k := by omega
      rw [BitVec.msb_eq_getLsbD_last, BitVec.getLsbD_extractLsb', BitVec.getLsbD_shiftLeft, hi]
      have h1 : 7 - k < 8 := by omega
      have h2 : ¬ 15 < k := by omega
      simp [h1, h2]
    rw [crc16Bit_eq, hbit, bne_self_eq_false, if_neg Bool.false_ne_true, BitVec.xor_zero, BitVec.shiftLeft_add]
  have h0 := hstep 0 (by decide)
  rw [BitVec.shiftLeft_zero] at h0
  simp only [crc16Byte, List.foldl]
  rw [h0, hstep 1 (by decide), hstep 2 (by decide), hstep 3 (by decide), hstep 4 (by decide), hstep 5 (by decide),
    hstep 6 (by decide), hstep 7 (by decide)]

/-- Over the zero register only the zero byte leaves zero: any other leaves what it leaves over a register that holds it. -/
theorem crc16Byte_zero {x : Byte} (h : crc16Byte 0 x = 0) : x = 0 := by
  have hhigh : (x.setWidth 16 <<< 8).extractLsb' 8 8 = x := by
    refine BitVec.eq_of_getLsbD_eq fun i hi => ?_
    have hlt : 8 + i < 16 := by omega
    rw [BitVec.getLsbD_extractLsb', BitVec.getLsbD_shiftLeft, BitVec.getLsbD_setWidth]
    simp [hi, hlt]
    omega
  have hout : crc16Byte (x.setWidth 16 <<< 8) x = 0 := by
    have hshift := crc16Byte_high (x.setWidth 16 <<< 8)
    rw [hhigh, ← BitVec.shiftLeft_add] at hshift
    exact hshift.trans (BitVec.shiftLeft_eq_zero (n := 8 + 8) (by decide))
  have hempty : x.setWidth 16 <<< 8 = 0 := crc16Byte_injective x (hout.trans h.symm)
  rw [← hhigh, hempty]
  rfl

theorem crc16Byte_ne (r : BitVec 16) {x y : Byte} (h : x ≠ y) : crc16Byte r x ≠ crc16Byte r y := by
  intro heq
  refine h (BitVec.xor_eq_zero_iff.1 (crc16Byte_zero ?_))
  have hxor := crc16Byte_xor r r x y
  rwa [heq, BitVec.xor_self, BitVec.xor_self] at hxor

/-- The register is 0 after its own two bytes. -/
theorem crc16_checkBytes (r : BitVec 16) :
    crc16Byte (crc16Byte r (r.extractLsb' 8 8)) (r.extractLsb' 0 8) = 0 := by
  have hlow : r.extractLsb' 0 8 = (r <<< 8).extractLsb' 8 8 := by
    refine BitVec.eq_of_getLsbD_eq fun i hi => ?_
    simp only [BitVec.getLsbD_extractLsb', BitVec.getLsbD_shiftLeft]
    have : 8 + i < 16 := by omega
    simp [hi, this]
  rw [crc16Byte_high, hlow, crc16Byte_high, ← BitVec.shiftLeft_add]
  exact BitVec.shiftLeft_eq_zero (by decide)

/-- Settles O27: the check word shifts the register out; a byte's change changes the register, and no later byte undoes
it. -/
theorem checkWordDetects : Obligations.CheckWordDetects := by
  refine ⟨fun m => ?_, fun p q x y hne => ?_, by decide⟩
  · rw [crc16, List.foldl_append]
    exact crc16_checkBytes (crc16 m)
  · simp only [crc16, List.foldl_append, List.foldl_cons]
    exact fun h => crc16Byte_ne _ hne (crc16_foldl_injective q h)

end Sys2Proof.Machine
end

section
/-! PROOFS. The meter factor of a curve (R48) and a processed sample (R41 to R56). -/

namespace Sys2Proof.Machine

/-! ## Interpolation -/

/-- A part of a rise, the quotient truncated, lies within the rise. -/
theorem tdiv_between {d x w : Int} (hd : 0 ≤ d) (hx : 0 ≤ x) (hw : x < w) :
    0 ≤ Int.tdiv (d * x) w ∧ Int.tdiv (d * x) w ≤ d := by
  have hpos : 0 < w := by omega
  rw [Int.tdiv_eq_ediv_of_nonneg (Int.mul_nonneg hd hx)]
  exact ⟨Int.ediv_nonneg (Int.mul_nonneg hd hx) (by omega),
    Int.ediv_le_of_le_mul hpos (Int.mul_le_mul_of_nonneg_left (by omega) hd)⟩

/-- The interpolated factor, and that it lies within any bounds of both ends (R48). -/
theorem interpolate_between {lo hi : CurvePoint} {q l u : Nat} (hlo : lo.flow ≤ q) (hhi : q < hi.flow)
    (hl : l ≤ lo.factor ∧ lo.factor ≤ u) (hh : l ≤ hi.factor ∧ hi.factor ≤ u) :
    (interpolate lo hi q : Int) = lo.factor +
        Int.tdiv (((hi.factor : Int) - lo.factor) * ((q : Int) - lo.flow)) ((hi.flow : Int) - lo.flow) ∧
      l ≤ interpolate lo hi q ∧ interpolate lo hi q ≤ u := by
  have hx : (0 : Int) ≤ (q : Int) - lo.flow := by omega
  have hw : (q : Int) - lo.flow < (hi.flow : Int) - lo.flow := by omega
  have hbetween : (l : Int) ≤ lo.factor +
        Int.tdiv (((hi.factor : Int) - lo.factor) * ((q : Int) - lo.flow)) ((hi.flow : Int) - lo.flow) ∧
      lo.factor + Int.tdiv (((hi.factor : Int) - lo.factor) * ((q : Int) - lo.flow)) ((hi.flow : Int) - lo.flow) ≤ u := by
    rcases Int.le_total 0 ((hi.factor : Int) - lo.factor) with hd | hd
    · have := tdiv_between hd hx hw
      omega
    · have hneg := tdiv_between (d := -((hi.factor : Int) - lo.factor)) (by omega) hx hw
      rw [Int.neg_mul, Int.neg_tdiv] at hneg
      omega
  unfold interpolate
  have hcast := Int.toNat_of_nonneg (Int.le_trans (Int.natCast_nonneg l) hbetween.1)
  exact ⟨hcast, by omega, by omega⟩

/-! ## Curves -/

/-- The factor from a point on lies within any bounds of the factors (R48). -/
theorem segmentFactor_between {q l u : Nat} {rest : List CurvePoint} {p : CurvePoint} (hp : p.flow ≤ q)
    (h : ∀ x ∈ p :: rest, l ≤ x.factor ∧ x.factor ≤ u) : l ≤ segmentFactor p q rest ∧ segmentFactor p q rest ≤ u := by
  induction rest generalizing p with
  | nil => exact h p List.mem_cons_self
  | cons hi rest ih =>
    unfold segmentFactor
    split_ifs with hq
    · exact (interpolate_between hp hq (h p List.mem_cons_self) (h hi (by simp))).2
    · exact ih (Nat.not_lt.1 hq) fun x hx => h x (List.mem_cons_of_mem _ hx)

/-- Beyond the last point the factor is the last one (R48). -/
theorem segmentFactor_beyond {q : Nat} {rest : List CurvePoint} {p : CurvePoint} (h : ∀ x ∈ rest, x.flow ≤ q) :
    some (segmentFactor p q rest) = ((p :: rest).getLast?).map CurvePoint.factor := by
  induction rest generalizing p with
  | nil => rfl
  | cons hi rest ih =>
    unfold segmentFactor
    rw [if_neg (Nat.not_lt.2 (h hi List.mem_cons_self)), ih fun x hx => h x (List.mem_cons_of_mem _ hx),
      List.getLast?_cons_cons]

/-- On the segment that contains the flow the factor is interpolated (R48). -/
theorem segmentFactor_within {q : Nat} {rest pre post : List CurvePoint} {p lo hi : CurvePoint}
    (hsplit : p :: rest = pre ++ lo :: hi :: post) (hpre : ∀ x ∈ pre, x.flow ≤ q) (hlo : lo.flow ≤ q) (hhi : q < hi.flow) :
    segmentFactor p q rest = interpolate lo hi q := by
  induction pre generalizing p rest with
  | nil =>
    cases hsplit
    exact if_pos hhi
  | cons x pre ih =>
    obtain ⟨rfl, hrest⟩ := List.cons.inj hsplit
    rw [List.append_eq] at hrest
    have hnext : ∃ y ys, pre ++ lo :: hi :: post = y :: ys ∧ y.flow ≤ q := by
      cases pre with
      | nil => exact ⟨_, _, rfl, hlo⟩
      | cons y ys => exact ⟨_, _, rfl, hpre y (by simp)⟩
    obtain ⟨y, ys, hy, hyq⟩ := hnext
    rw [hrest, hy, segmentFactor, if_neg (Nat.not_lt.2 hyq)]
    exact ih hy.symm fun z hz => hpre z (List.mem_cons_of_mem _ hz)

/-- Settles O52: the ends by `segmentFactor_beyond`, a segment by `segmentFactor_within`, the bounds by induction. -/
theorem meterFactorOfCurve : Obligations.MeterFactorOfCurve := by
  refine fun q => ⟨rfl, fun points hvalid hne => ?_⟩
  obtain ⟨-, hpoints, hrise⟩ := (curveInRange_iff points).2 hvalid
  obtain ⟨p, rest, rfl⟩ := List.exists_cons_of_ne_nil hne
  have hfactors : ∀ x ∈ p :: rest, 95000 ≤ x.factor ∧ x.factor ≤ 105000 := fun x hx => (hpoints x hx).2
  have hfirst : q ≤ p.flow → curveFactor (p :: rest) q = p.factor := fun h => if_pos h
  have hlater : ¬ q ≤ p.flow → curveFactor (p :: rest) q = segmentFactor p q rest := fun h => if_neg h
  have hbounds : 95000 ≤ curveFactor (p :: rest) q ∧ curveFactor (p :: rest) q ≤ 105000 := by
    by_cases h : q ≤ p.flow
    · rw [hfirst h]
      exact hfactors p List.mem_cons_self
    · rw [hlater h]
      exact segmentFactor_between (by omega) hfactors
  refine ⟨hbounds.1, hbounds.2, fun p' rest' heq h => ?_, fun z hz h => ?_, fun pre lo hi post hsplit hlo hhi => ?_⟩
  · obtain ⟨rfl, rfl⟩ := List.cons.inj heq
    exact hfirst h
  · have hall : ∀ x ∈ p :: rest, x.flow ≤ z.flow := by
      obtain ⟨ys, hys⟩ := List.getLast?_eq_some_iff.1 hz
      rw [hys] at hrise ⊢
      intro x hx
      rcases List.mem_append.1 hx with hx | hx
      · exact Nat.le_of_lt ((List.pairwise_append.1 hrise).2.2 x hx z (by simp))
      · rw [List.mem_singleton.1 hx]
    by_cases hq : q ≤ p.flow
    · have hnil : rest = [] := by
        cases hrest : rest with
        | nil => rfl
        | cons y ys =>
          rw [hrest, List.getLast?_cons_cons, ← hrest] at hz
          have := (List.pairwise_cons.1 hrise).1 z (List.mem_of_getLast? hz)
          omega
      subst hnil
      cases hz
      exact hfirst hq
    · have hlast := segmentFactor_beyond (q := q) (p := p) (rest := rest) fun x hx =>
        Nat.le_trans (hall x (List.mem_cons_of_mem _ hx)) h
      rw [hz] at hlast
      rw [hlater hq]
      exact Option.some.inj hlast
  · have hends : (95000 ≤ lo.factor ∧ lo.factor ≤ 105000) ∧ 95000 ≤ hi.factor ∧ hi.factor ≤ 105000 := by
      rw [hsplit] at hfactors
      exact ⟨hfactors lo (by simp), hfactors hi (by simp)⟩
    have hpre : ∀ x ∈ pre, x.flow < lo.flow := fun x hx => by
      rw [hsplit] at hrise
      exact (List.pairwise_append.1 hrise).2.2 x hx lo (by simp)
    have hvalue := (interpolate_between hlo hhi hends.1 hends.2).1
    by_cases hq : q ≤ p.flow
    · cases pre with
      | nil =>
        obtain ⟨rfl, -⟩ := List.cons.inj hsplit
        rw [hfirst hq, show (q : Int) - p.flow = 0 by omega, Int.mul_zero, Int.zero_tdiv, Int.add_zero]
      | cons x pre =>
        obtain ⟨rfl, -⟩ := List.cons.inj hsplit
        have := hpre p List.mem_cons_self
        omega
    · rw [hlater hq, segmentFactor_within hsplit (fun x hx => by have := hpre x hx; omega) hlo hhi]
      exact hvalue

/-! ## A processed sample -/

/-- A totalizer pair as one number of millilitres, and the sum it takes (R56). -/
theorem MeterTotals.add_eq (t : MeterTotals) (gv nv : Nat) :
    (t.add gv nv).grossL * 1000 + (t.add gv nv).grossMl = (t.grossL * 1000 + t.grossMl + gv) % 1000000000000 ∧
    (t.add gv nv).netL * 1000 + (t.add gv nv).netMl = (t.netL * 1000 + t.netMl + nv) % 1000000000000 := by
  unfold MeterTotals.add
  constructor <;> dsimp only <;> omega

/-- The temperature and its age after a sample (R50). -/
theorem Meter.takeTemp_reads (m : Meter) (t : Int) (status : MeterStatus) :
    if -5000 ≤ t ∧ t ≤ 7000 ∧ status ≠ .fail then
      (m.takeTemp t status).temp = some t ∧ (m.takeTemp t status).age = 0
    else (m.takeTemp t status).temp = m.temp ∧ (m.takeTemp t status).age = if m.age < 3000 then m.age + 1 else 3000 := by
  have hvalid : tempValid t status = true ↔ -5000 ≤ t ∧ t ≤ 7000 ∧ status ≠ .fail := by
    simp [tempValid, and_assoc]
  unfold Meter.takeTemp
  simp only [← hvalid]
  by_cases h : tempValid t status = true
  · rw [if_pos h, if_pos h]
    exact ⟨rfl, rfl⟩
  · rw [if_neg h, if_neg h]
    exact ⟨rfl, rfl⟩

/-- What the temperature of a sample leaves of the meter (R50). -/
theorem Meter.takeTemp_keeps (m : Meter) (t : Int) (status : MeterStatus) :
    m.takeTemp t status = { m with temp := (m.takeTemp t status).temp, age := (m.takeTemp t status).age } := by
  unfold Meter.takeTemp
  split <;> rfl

/-- The meter that has noted a sample: its temperature, its total and its frame (R43, R44, R50). -/
def Meter.noted (m : Meter) (w : MeterWord) (n : Nat) : Meter := (m.takeTemp w.temp w.status).accepted w.total n

theorem State.processMeter_uncounted {s : State} {a : Fin 8} {p : StreamPos} {w : MeterWord}
    (h : s.Seeds a p ∨ s.AboveLimit a p w.total) :
    s.processMeter a p w = ((s.meter a p).noted w s.trunk.frameCounter).zeroSample s.timebase.periodMs :=
  if_pos (State.uncounted_iff.2 h)

theorem State.processMeter_counted {s : State} {a : Fin 8} {p : StreamPos} {w : MeterWord}
    (h : ¬ (s.Seeds a p ∨ s.AboveLimit a p w.total)) :
    s.processMeter a p w = ((s.meter a p).noted w s.trunk.frameCounter).convert (s.constants a p)
      (pulseDelta w.total ((s.meter a p).lastTotal.getD 0)) :=
  if_neg (mt State.uncounted_iff.1 h)

theorem Meter.noted_eq (m : Meter) (w : MeterWord) (n : Nat) : m.noted w n =
    { m with temp := (m.takeTemp w.temp w.status).temp, age := (m.takeTemp w.temp w.status).age,
             lastTotal := some w.total, lastFrame := n, lost := false } := by
  unfold Meter.noted Meter.accepted
  rw [Meter.takeTemp_keeps]

/-- A processed sample gives what R43 to R56 state. -/
theorem State.processMeter_samples (s : State) (a : Fin 8) (p : StreamPos) (w : MeterWord) :
    s.Samples a p w (s.processMeter a p w).1 (s.processMeter a p w).2 := by
  have htemp := (s.meter a p).takeTemp_reads w.temp w.status
  unfold State.Samples
  by_cases huncounted : s.Seeds a p ∨ s.AboveLimit a p w.total
  · rw [State.processMeter_uncounted huncounted, Meter.noted_eq]
    refine ⟨⟨rfl, rfl, rfl, rfl, rfl, rfl, rfl⟩, htemp, rfl, rfl, fun _ => ⟨rfl, rfl, rfl, rfl, rfl, rfl, rfl, rfl⟩,
      fun h => absurd huncounted h⟩
  · rw [State.processMeter_counted huncounted, Meter.noted_eq]
    refine ⟨⟨rfl, rfl, rfl, rfl, rfl, rfl, rfl⟩, htemp, rfl, rfl, fun h => absurd h huncounted, fun _ k last hk hlast => ?_⟩
    obtain rfl := State.convertsWith_iff.1 hk
    rw [hlast]
    exact ⟨rfl, rfl, rfl, rfl, rfl, rfl, rfl, fun _ => ⟨MeterTotals.add_inRange _ _ _, MeterTotals.add_eq _ _ _⟩⟩

/-- The indicated volume of one delta is bounded when the residue lies below its divisor (R46, R59). -/
theorem indicated_le {delta res k10 : Nat} (hdelta : delta < 65536) (hk : 100 ≤ k10) (hres : res < k10) :
    (delta * 10000 + res) / k10 ≤ 6553500 := by
  have : (delta * 10000 + res) / k10 < 6553501 := by
    rw [Nat.div_lt_iff_lt_mul (by omega)]
    omega
  omega

/-- Settles O53: the constants are those the model reads; a sample is counted or not by the two equations of `processMeter`. -/
theorem deltaConverted : Obligations.DeltaConverted := by
  refine ⟨fun s a p => ⟨s.constants a p, State.convertsWith_iff.2 rfl, fun k' hk' => State.convertsWith_iff.1 hk'⟩,
    fun s a p word => ⟨s.processMeter_samples a p word, fun k hk hk10 hres => ?_⟩⟩
  obtain rfl := State.convertsWith_iff.1 hk
  by_cases huncounted : s.Seeds a p ∨ s.AboveLimit a p word.total
  · rw [State.processMeter_uncounted huncounted]
    exact Nat.zero_le _
  · rw [State.processMeter_counted huncounted, Meter.noted_eq]
    exact indicated_le (Nat.mod_lt _ (by decide)) hk10 hres

end Sys2Proof.Machine
end

section
/-! PROOFS. The controlled set-point at a pass (R105 to R111), and the shots of an additive entry: the pass that crosses an
injection point, the pass that does not, and the final shot at a NORMAL close (R119 to R122, R128). -/

namespace Sys2Proof.Machine

/-! ## The controlled set-point -/

/-- A ramp step stays between where it starts and where it goes, moves by at most the limit, and arrives when it can. -/
theorem rampToward_between (last demand limit : Nat) :
    ((rampToward last demand limit : Int) - last).natAbs ≤ limit ∧
    (((demand : Int) - last).natAbs ≤ limit → rampToward last demand limit = demand) ∧
    (last ≤ demand → last ≤ rampToward last demand limit ∧ rampToward last demand limit ≤ demand) ∧
    (demand ≤ last → rampToward last demand limit ≤ last ∧ demand ≤ rampToward last demand limit) := by
  unfold rampToward
  split_ifs <;> omega

theorem Arm.ratioAct_straight {x : Arm} (h : x.ratio.mode = .straight) (received : Bool) (q : Nat) :
    x.ratioAct received q = x.straightWatch := by
  unfold Arm.ratioAct
  rw [h]

theorem ArmState.watched_iff {st : ArmState} : st.watched = true ↔ st.flowing ∨ st = .closing := by
  cases st <;> simp [ArmState.watched, ArmState.flowing]

/-- Settles O58: the ramp lies between the set-point and the demand; a straight load is watched at 2,000 mL. -/
theorem controlledSetpointMoves : Obligations.ControlledSetpointMoves := by
  constructor
  · intro x c q _ hset y f d demand
    have hdemand : (ctrlDemand c q x.wild.net x.ctrl.net : Int) = demand := ctrlDemand_cast c q x.wild.net x.ctrl.net
    have hmax : demand ≤ c.settings.ctrlMax := by omega
    obtain ⟨hlimit, harrive, hrise, hfall⟩ :=
      rampToward_between x.ratio.ctrlSet (ctrlDemand c q x.wild.net x.ctrl.net) c.settings.rampLimit
    have hy : y.ratio.ctrlSet =
      rampToward x.ratio.ctrlSet (ctrlDemand c q x.wild.net x.ctrl.net) c.settings.rampLimit := rfl
    rw [← hy] at hlimit harrive hrise hfall
    refine ⟨by omega, hlimit, fun h => ?_, fun h => ?_, fun h => ?_, rfl, rfl, rfl⟩
    · rw [harrive (by omega), hdemand]
    · have := hrise (by omega)
      omega
    · have := hfall (by omega)
      omega
  · intro x received q hmode held
    have hwatch : x.ratioAct received q =
        if held.state.watched = true ∧ Config.straightLimit < held.ctrl.net then held.raiseCause .uncommandedFlow
        else held := Arm.ratioAct_straight hmode received q
    have hnet : held.ctrl.net = x.ctrl.net := by
      unfold held
      split <;> rfl
    refine ⟨fun hlow => ?_, fun hhigh => ?_⟩
    · rw [hwatch, hnet]
      exact if_neg fun h => absurd h.2 (Nat.not_lt.2 hlow)
    · rw [hwatch, hnet]
      by_cases hw : held.state.watched = true
      · rw [if_pos ⟨hw, hhigh⟩]
        exact Arm.takes_raiseCause _ _
      · have hnot := mt ArmState.watched_iff.2 hw
        rw [if_neg fun h => hw h.1]
        exact ⟨fun h => absurd (.inl h) hnot, fun h => absurd (.inr h) hnot, fun _ _ => rfl⟩

/-! ## The pass of an entry -/

/-- The injection point at or above a volume is the first multiple of the interval there (R119). -/
theorem pointAtOrAbove_first (n : Nat) {interval : Nat} (h : 0 < interval) :
    n ≤ pointAtOrAbove n interval ∧ pointAtOrAbove n interval < n + interval ∧ interval ∣ pointAtOrAbove n interval := by
  unfold pointAtOrAbove ceilDiv
  have hdiv := Nat.div_add_mod (n + interval - 1) interval
  have hmod := Nat.mod_lt (n + interval - 1) h
  rw [Nat.mul_comm] at hdiv
  exact ⟨by omega, by omega, Nat.dvd_mul_left _ _⟩

section
variable {x : Arm} {k : Nat} {e : AdditiveEntry}

/-- An entry with no shot outstanding does not age (R120). -/
theorem Arm.ageShot_of_none (hk : x.entries[k]? = some e) (hshot : e.shot = none) : x.ageShot k = x := by
  unfold Arm.ageShot
  rw [hk]
  dsimp only
  rw [hshot]

/-- The entry with its shot one frame older (R120). -/
def AdditiveEntry.older (e : AdditiveEntry) (sh : Shot) : AdditiveEntry :=
  { e with shot := some { sh with age := sh.age + 1 } }

/-- An outstanding shot below its timeout ages by one frame (R120). -/
theorem Arm.ageShot_of_some {sh : Shot} (hk : x.entries[k]? = some e) (hshot : e.shot = some sh)
    (hage : sh.age + 1 < 100) : x.ageShot k = x.setEntry k (e.older sh) := by
  unfold Arm.ageShot
  rw [hk]
  dsimp only
  rw [hshot]
  exact if_neg (Nat.not_le.2 hage)

/-- The entry with its target recomputed (R119). -/
def AdditiveEntry.aimed (e : AdditiveEntry) (n : Nat) : AdditiveEntry := { e with target := e.item.targetFor n }

/-- A pass that crosses no point recomputes the target alone (R120). -/
theorem Arm.crossPoint_of_not_crossing (hk : x.entries[k]? = some e)
    (h : e.state ≠ .active ∨ x.netDelivered ≤ e.nextPoint) : x.crossPoint k = x.setEntry k (e.aimed x.netDelivered) := by
  unfold Arm.crossPoint
  rw [hk]
  exact if_neg fun hcross => h.elim (fun hn => hn hcross.1) fun hn => Nat.not_lt.2 hn hcross.2

/-- The entry past a crossing: its target, and its next point (R119, R121). -/
def AdditiveEntry.crossed (e : AdditiveEntry) (n : Nat) : AdditiveEntry :=
  { e.aimed n with nextPoint := pointAtOrAbove n (e.item.interval * 1000) }

/-- A crossing with a shot outstanding or the injector busy moves the point and issues no shot (R121, R122). -/
theorem Arm.crossPoint_of_withheld (hk : x.entries[k]? = some e) (hactive : e.state = .active)
    (hcross : e.nextPoint < x.netDelivered) (h : e.shot ≠ none ∨ x.injectors[e.item.injector].busy = true) :
    x.crossPoint k = x.setEntry k (e.crossed x.netDelivered) := by
  unfold Arm.crossPoint
  rw [hk]
  refine (if_pos ⟨hactive, hcross⟩).trans (if_neg fun hfree => ?_)
  obtain ⟨hshot, hbusy⟩ := hfree
  exact h.elim (fun hn => hn hshot) fun hb => by rw [Arm.injectorBusy] at hbusy; exact absurd (hb.symm.trans hbusy) (by decide)

/-- A crossing with nothing in its way issues a shot (R121). -/
theorem Arm.crossPoint_of_crossing (hk : x.entries[k]? = some e) (hactive : e.state = .active)
    (hcross : e.nextPoint < x.netDelivered) (hshot : e.shot = none) (hbusy : x.injectors[e.item.injector].busy = false) :
    x.crossPoint k = x.issueShot k (e.crossed x.netDelivered)
      (shotVolume (e.item.nominal + (e.crossed x.netDelivered).deficit) e.item.nominal) := by
  unfold Arm.crossPoint
  rw [hk]
  exact (if_pos ⟨hactive, hcross⟩).trans (if_pos ⟨hshot, hbusy⟩)

/-- The pass of a RUNNING arm's entry without a shot (R120). -/
theorem Arm.passEntry_of_none (hk : x.entries[k]? = some e) (hstate : x.state = .running) (hshot : e.shot = none) :
    x.passEntry k = x.crossPoint k := by
  unfold Arm.passEntry
  rw [Arm.ageShot_of_none hk hshot]
  exact if_pos hstate

/-- The pass of a RUNNING arm's entry with a shot below its timeout (R120). -/
theorem Arm.passEntry_of_some {sh : Shot} (hk : x.entries[k]? = some e) (hstate : x.state = .running)
    (hshot : e.shot = some sh) (hage : sh.age + 1 < 100) :
    x.passEntry k = (x.setEntry k (e.older sh)).crossPoint k := by
  unfold Arm.passEntry
  rw [Arm.ageShot_of_some hk hshot hage]
  exact if_pos hstate

theorem Arm.setEntry_getElem? (hk : x.entries[k]? = some e) (e' : AdditiveEntry) :
    (x.setEntry k e').entries[k]? = some e' :=
  List.getElem?_set_self (List.getElem?_eq_some_iff.1 hk).1

theorem Arm.setEntry_setEntry (x : Arm) (k : Nat) (e e' : AdditiveEntry) :
    (x.setEntry k e).setEntry k e' = x.setEntry k e' := by
  simp [Arm.setEntry]

end

/-! ## The entries at a NORMAL close -/

theorem AdditiveEntry.dropped_eq (e : AdditiveEntry) :
    e.dropped = { e with state := if e.state = .failed then .failed else .dropped } := by
  unfold AdditiveEntry.dropped
  split_ifs with h
  · rw [← h]
  · rfl

/-- An entry gets a final shot at a NORMAL close (R128). -/
def Arm.FinalShot (x : Arm) (e : AdditiveEntry) : Prop :=
  e.state = .active ∧ e.shot = none ∧ x.injectors[e.item.injector].busy = false ∧
  (e.item.nominal : Int) ≤ 2 * (e.aimed x.netDelivered).deficit

section
variable {x : Arm} {k : Nat} {e : AdditiveEntry}

theorem Arm.closeEntryNormal_of_final (hk : x.entries[k]? = some e) (h : x.FinalShot e) :
    x.closeEntryNormal k = x.issueShot k (e.aimed x.netDelivered).dropped
      (shotVolume (e.aimed x.netDelivered).deficit e.item.nominal) := by
  unfold Arm.closeEntryNormal
  rw [hk]
  exact if_pos h

theorem Arm.closeEntryNormal_of_not_final (hk : x.entries[k]? = some e) (h : ¬ x.FinalShot e) :
    x.closeEntryNormal k = x.setEntry k (e.aimed x.netDelivered).dropped := by
  unfold Arm.closeEntryNormal
  rw [hk]
  exact if_neg h

theorem Arm.closeEntryNormal_of_none (hk : x.entries[k]? = none) : x.closeEntryNormal k = x := by
  unfold Arm.closeEntryNormal
  rw [hk]

theorem Arm.issueShot_getElem? (hk : x.entries[k]? = some e) {e' : AdditiveEntry} {j : Fin 4}
    (hj : e'.item.injector = j) (v : Nat) :
    (x.issueShot k e' v).entries[k]? = some { e' with shot := some {
      volume := v, toggle := !x.injectors[j].ref, age := 0 } } := by
  subst hj
  exact List.getElem?_set_self (List.getElem?_eq_some_iff.1 hk).1

theorem Arm.issueShot_injector (x : Arm) (k : Nat) {e : AdditiveEntry} {j : Fin 4} (hj : e.item.injector = j) (v : Nat) :
    (x.issueShot k e v).injectors[j] = { x.injectors[j] with held := !x.injectors[j].ref } := by
  subst hj
  exact get_set_self _ _ _

theorem Arm.issueShot_injector_ne (x : Arm) (k : Nat) {e : AdditiveEntry} {j : Fin 4} (hj : e.item.injector ≠ j)
    (v : Nat) : (x.issueShot k e v).injectors[j] = x.injectors[j] :=
  get_set_ne _ _ _ _ hj

end

/-- The accounts, the busy marks and the reference toggles are those of `x`; a toggle is held or is the inverse of its
reference. -/
def Arm.ShotsOnly (x y : Arm) : Prop :=
  y.wild = x.wild ∧ y.ctrl = x.ctrl ∧ ∀ j : Fin 4, y.injectors[j].busy = x.injectors[j].busy ∧
    y.injectors[j].ref = x.injectors[j].ref ∧
    (y.injectors[j].held = x.injectors[j].held ∨ y.injectors[j].held = !x.injectors[j].ref)

theorem Arm.ShotsOnly.refl (x : Arm) : x.ShotsOnly x := ⟨rfl, rfl, fun _ => ⟨rfl, rfl, .inl rfl⟩⟩

theorem Arm.ShotsOnly.trans {x y z : Arm} (h : x.ShotsOnly y) (h' : y.ShotsOnly z) : x.ShotsOnly z := by
  obtain ⟨hw, hc, hj⟩ := h
  obtain ⟨hw', hc', hj'⟩ := h'
  refine ⟨hw'.trans hw, hc'.trans hc, fun j => ?_⟩
  obtain ⟨hb, hr, hh⟩ := hj j
  obtain ⟨hb', hr', hh'⟩ := hj' j
  refine ⟨hb'.trans hb, hr'.trans hr, ?_⟩
  rw [hr] at hh'
  exact hh'.elim (fun h => hh.imp h.trans h.trans) .inr

theorem Arm.ShotsOnly.finalShot_iff {x y : Arm} (h : x.ShotsOnly y) (e : AdditiveEntry) :
    y.FinalShot e ↔ x.FinalShot e := by
  obtain ⟨hw, hc, hj⟩ := h
  unfold Arm.FinalShot Arm.netDelivered
  rw [hw, hc, (hj _).1]

theorem Arm.closeEntryNormal_shotsOnly (x : Arm) (k : Nat) : x.ShotsOnly (x.closeEntryNormal k) := by
  cases hk : x.entries[k]? with
  | none => rw [Arm.closeEntryNormal_of_none hk]; exact .refl x
  | some e =>
    by_cases hf : x.FinalShot e
    · rw [Arm.closeEntryNormal_of_final hk hf]
      refine ⟨rfl, rfl, fun j => ?_⟩
      by_cases hj : (e.aimed x.netDelivered).dropped.item.injector = j
      · rw [Arm.issueShot_injector _ _ hj]
        exact ⟨rfl, rfl, .inr rfl⟩
      · rw [Arm.issueShot_injector_ne _ _ hj]
        exact ⟨rfl, rfl, .inl rfl⟩
    · rw [Arm.closeEntryNormal_of_not_final hk hf]
      exact .refl x

theorem Arm.closeEntryNormal_getElem?_ne (x : Arm) {k l : Nat} (h : l ≠ k) :
    (x.closeEntryNormal l).entries[k]? = x.entries[k]? := by
  cases hl : x.entries[l]? with
  | none => rw [Arm.closeEntryNormal_of_none hl]
  | some e =>
    by_cases hf : x.FinalShot e
    · rw [Arm.closeEntryNormal_of_final hl hf]
      exact List.getElem?_set_ne h
    · rw [Arm.closeEntryNormal_of_not_final hl hf]
      exact List.getElem?_set_ne h

/-- The other entries' closes leave an entry as it is. -/
theorem Arm.foldl_closeEntryNormal_others (x : Arm) (k : Nat) (l : List Nat) (h : k ∉ l) :
    x.ShotsOnly (l.foldl Arm.closeEntryNormal x) ∧ (l.foldl Arm.closeEntryNormal x).entries[k]? = x.entries[k]? := by
  induction l generalizing x with
  | nil => exact ⟨.refl x, rfl⟩
  | cons i l ih =>
    obtain ⟨hshots, hentry⟩ := ih (x.closeEntryNormal i) fun hm => h (List.mem_cons_of_mem _ hm)
    have hne : i ≠ k := fun he => h (he ▸ List.mem_cons_self)
    exact ⟨(x.closeEntryNormal_shotsOnly i).trans hshots, hentry.trans (x.closeEntryNormal_getElem?_ne hne)⟩

/-- An entry after a NORMAL close of all entries: as its own close leaves it, at the accounts and the injectors of before
(R128). -/
theorem Arm.closeEntries_normal {x : Arm} {k : Nat} {e : AdditiveEntry} (hk : x.entries[k]? = some e) :
    (x.FinalShot e →
      (x.closeEntries true).entries[k]? = some { (e.aimed x.netDelivered).dropped with shot := some {
        volume := shotVolume (e.aimed x.netDelivered).deficit e.item.nominal,
        toggle := !x.injectors[e.item.injector].ref, age := 0 } } ∧
      (x.closeEntries true).injectors[e.item.injector].held = !x.injectors[e.item.injector].ref) ∧
    (¬ x.FinalShot e → (x.closeEntries true).entries[k]? = some (e.aimed x.netDelivered).dropped) := by
  have hitem : (e.aimed x.netDelivered).dropped.item.injector = e.item.injector :=
    congrArg AdditiveItem.injector (AdditiveEntry.dropped_item _)
  have hlt := (List.getElem?_eq_some_iff.1 hk).1
  obtain ⟨before, after, hsplit⟩ := List.mem_iff_append.1 (List.mem_range.2 hlt)
  have hnodup := List.nodup_range (n := x.entries.length)
  rw [hsplit, List.nodup_middle, List.nodup_cons, List.mem_append, not_or] at hnodup
  obtain ⟨⟨hbefore, hafter⟩, -⟩ := hnodup
  have hclose : x.closeEntries true =
      after.foldl Arm.closeEntryNormal ((before.foldl Arm.closeEntryNormal x).closeEntryNormal k) := by
    unfold Arm.closeEntries
    rw [if_pos rfl, hsplit, List.foldl_append, List.foldl_cons]
  rw [hclose]
  obtain ⟨hshots, hentry⟩ := x.foldl_closeEntryNormal_others k before hbefore
  generalize before.foldl Arm.closeEntryNormal x = y at *
  obtain ⟨⟨-, -, hinj⟩, hkept⟩ := (y.closeEntryNormal k).foldl_closeEntryNormal_others k after hafter
  rw [hkept]
  rw [hk] at hentry
  have hnet : y.netDelivered = x.netDelivered := by
    obtain ⟨hw, hc, -⟩ := hshots
    unfold Arm.netDelivered
    rw [hw, hc]
  have href := (hshots.2.2 e.item.injector).2.1
  rw [← hshots.finalShot_iff e]
  refine ⟨fun hf => ?_, fun hf => ?_⟩
  · rw [Arm.closeEntryNormal_of_final hentry hf, hnet, Arm.issueShot_getElem? hentry hitem, href]
    refine ⟨rfl, ?_⟩
    have hheld := hinj e.item.injector
    rw [Arm.closeEntryNormal_of_final hentry hf, hnet, Arm.issueShot_injector _ _ hitem] at hheld
    obtain ⟨-, -, h | h⟩ := hheld <;> rw [h, href]
  · rw [Arm.closeEntryNormal_of_not_final hentry hf, hnet, Arm.setEntry_getElem? hentry]

/-- The entries and the injectors of an arm that enters CLOSING are those of the close of its entries (R96, R128). -/
theorem Arm.enterClosing_closes (x : Arm) (c : EndCause) :
    ∃ y : Arm, y.entries = x.entries ∧ y.injectors = x.injectors ∧ y.wild = x.wild ∧ y.ctrl = x.ctrl ∧
      (x.enterClosing c).entries = (y.closeEntries (c == .normal)).entries ∧
      (x.enterClosing c).injectors = (y.closeEntries (c == .normal)).injectors := by
  refine ⟨{ x with
    state := .closing, phase := .none, endReason := some c, wildSet := 0,
    ratio := { x.ratio with ctrlSet := 0, limited := false }, deliveredAtClose := x.delivered, zeroCount := 0,
    settleAge := 0, current := x.current.map CurrentRecord.closing }, rfl, rfl, rfl, rfl, ?_⟩
  unfold Arm.enterClosing
  dsimp only
  split <;> exact ⟨rfl, rfl⟩

/-- Settles O60: the passes by `Arm.passEntry_of_none` and `Arm.passEntry_of_some`, the close by `Arm.closeEntries_normal`. -/
theorem crossingIssuesShot : Obligations.CrossingIssuesShot := by
  refine ⟨?_, ?_, ?_⟩
  · intro x k e hk hstate hactive hshot hcross hinterval hnominal hbusy n nominal target
    have hpoint := pointAtOrAbove_first n (interval := e.item.interval * 1000) (by omega)
    rw [Arm.passEntry_of_none hk hstate hshot, Arm.crossPoint_of_crossing hk hactive hcross hshot hbusy]
    refine ⟨_, _, Arm.issueShot_getElem? hk rfl _, rfl, rfl, rfl, rfl, ?_, hpoint.1, hpoint.2.1, hpoint.2.2, ?_, hstate⟩
    · exact shotVolume_cast _ (show 10 ≤ 2 * nominal by omega)
    · exact congrArg Injector.held (Arm.issueShot_injector x k rfl _)
  · intro x k e hk hstate n aims aged goes moves
    refine ⟨fun hno => ⟨fun hshot => ?_, fun sh hshot hage => ?_⟩, fun hactive hcross hinterval =>
      ⟨fun hshot hbusy => ?_, fun sh hshot hage => ?_⟩⟩
    · exact (Arm.passEntry_of_none hk hstate hshot).trans (Arm.crossPoint_of_not_crossing hk hno)
    · refine (Arm.passEntry_of_some hk hstate hshot hage).trans
        ((Arm.crossPoint_of_not_crossing (Arm.setEntry_getElem? hk (e.older sh)) hno).trans (Arm.setEntry_setEntry _ _ _ _))
    · obtain ⟨h1, h2, h3⟩ := pointAtOrAbove_first n (interval := e.item.interval * 1000) (by omega)
      exact ⟨_, h1, h2, h3, (Arm.passEntry_of_none hk hstate hshot).trans
        (Arm.crossPoint_of_withheld hk hactive hcross (.inr hbusy))⟩
    · obtain ⟨h1, h2, h3⟩ := pointAtOrAbove_first n (interval := e.item.interval * 1000) (by omega)
      exact ⟨_, h1, h2, h3, (Arm.passEntry_of_some hk hstate hshot hage).trans
        ((Arm.crossPoint_of_withheld (Arm.setEntry_getElem? hk (e.older sh)) hactive hcross (.inl (Option.some_ne_none _))).trans
          (Arm.setEntry_setEntry _ _ _ _))⟩
  · intro x cause k e hflow hk nominal target deficit after final
    rw [Arm.raiseCause_flowing x cause hflow]
    obtain ⟨y, hentries, hinj, hwild, hctrl, hclosed, hclosedInj⟩ := x.enterClosing_closes cause
    rw [hclosed, hclosedInj]
    have hky : y.entries[k]? = some e := by rw [hentries, hk]
    have hnet : y.netDelivered = x.wild.net + x.ctrl.net := by rw [Arm.netDelivered, hwild, hctrl]
    by_cases hcause : cause = .normal
    · subst hcause
      have hafter : (e.aimed y.netDelivered).dropped = after := by
        rw [hnet, AdditiveEntry.dropped_eq]
        rfl
      have hfinal : final ↔ y.FinalShot e := by
        unfold Arm.FinalShot
        rw [hnet, hinj]
        exact ⟨fun h => h.2, fun h => ⟨rfl, h⟩⟩
      obtain ⟨hyes, hno⟩ := Arm.closeEntries_normal hky
      rw [hafter, hinj] at hyes
      rw [hafter] at hno
      refine ⟨fun hf hten => ?_, fun hf => hno (mt hfinal.2 hf)⟩
      have hvolume : shotVolume (e.aimed y.netDelivered).deficit e.item.nominal =
          (max 10 (min (2 * (nominal : Int)) deficit)).toNat := by
        rw [hnet]
        exact (Int.toNat_natCast _).symm.trans (congrArg Int.toNat (shotVolume_cast _ (show 10 ≤ 2 * nominal by omega)))
      rw [← hvolume]
      exact hyes (hfinal.1 hf)
    · refine ⟨fun hf => absurd hf.1 hcause, fun _ => ?_⟩
      have hafter : e.dropped = after := by
        rw [AdditiveEntry.dropped_eq]
        simp only [after, if_neg hcause]
      rw [beq_false_of_ne hcause, ← hafter]
      exact (List.getElem?_map ..).trans (congrArg _ hky)

end Sys2Proof.Machine
end

section
/-! PROOFS. STORE: the decision in the terms of R150, and what an accepted STORE leaves (R58, R151, R152, R156, R157). -/

namespace Sys2Proof.Machine

/-! ## The decision -/

theorem Request.admitted_store {p : List Byte} (hright : storeLengthRight p) (hlength : p.length ≤ 240) :
    ({ code := .store, arm := deviceByte, payload := p } : Request).admitted = true := by
  have hok : contentLengthOk p = true := beq_iff_eq.2 ((storeLengthRight_iff p).1 hright)
  simp only [Request.admitted, RequestCode.payloadOk, hok, decide_eq_true hlength, Bool.true_and]
  rfl

theorem exec_store_refused {s : State} {p : List Byte} {c : Sense} (hs : s.Ready) (hright : storeLengthRight p)
    (hlength : p.length ≤ 240) (h : s.storeDecision p = .error c) :
    exec (.store deviceByte p) s = .next (s.refused .store deviceByte c) := by
  refine exec_refused (code := .store) hs (Request.admitted_store hright hlength) nofun ?_
  replace h : s.cleared.storeDecision p = .error c := h
  rw [State.serve, h]

/-- Settles O15: the conditions in their order; the conditions 4 to 7 of the model are those of the spec. -/
theorem storeRefused : Obligations.StoreRefused := by
  intro s p hs hright hlength
  have hrefuse := fun {c : Sense} (h : s.storeDecision p = .error c) => exec_store_refused hs hright hlength h
  refine ⟨fun hclear => hrefuse (if_pos hclear), fun hset hbusy => hrefuse ((if_neg hset).trans (if_pos hbusy)),
    fun hset hfree => ⟨fun hnone => hrefuse ?_, fun c hrange hcarried => ?_⟩⟩
  · have hd : decodeContent p = none := Option.eq_none_iff_forall_ne_some.2 fun c hc => by
      obtain ⟨hrange, hcarried⟩ := (decodeContent_eq_some hright).1 hc
      exact hnone c hrange hcarried
    unfold State.storeDecision
    rw [if_neg hset, if_neg hfree, hd]
  · have hdecision : s.storeDecision p = if s.badMode c then .error .badMode
        else if s.protectedStore c then .error .isProtected
        else if s.certBars c then .error .certLocked
        else if s.batchesBar c then .error .batchesOpen else .ok c := by
      unfold State.storeDecision
      rw [if_neg hset, if_neg hfree, (decodeContent_eq_some hright).2 ⟨hrange, hcarried⟩]
    rw [← State.badMode_iff, ← State.protectedStore_iff, ← State.certBars_iff, ← State.batchesBar_iff]
    refine ⟨fun h4 => hrefuse ?_, fun h4 h5 => hrefuse ?_, fun h4 h5 h6 => hrefuse ?_, fun h4 h5 h6 h7 => hrefuse ?_⟩
    · rw [hdecision, if_pos h4]
    · rw [hdecision, if_neg h4, if_pos h5]
    · rw [hdecision, if_neg h4, if_neg h5, if_pos h6]
    · rw [hdecision, if_neg h4, if_neg h5, if_neg h6, if_pos h7]

/-! ## What an accepted STORE leaves -/

theorem State.rebaseMeters_eq (s : State) (c : Content) :
    s.rebaseMeters c = { s with meters := (s.rebaseMeters c).meters } := by
  cases c <;> rfl

theorem State.writeWorking_eq (s : State) (c : Content) :
    s.writeWorking c = { s with
      meters := (s.rebaseMeters c).meters, tables := s.tables.write (s.store.latch == .working) c,
      nv := { s.nv with
        metroCounter := if s.metrological c then satSucc 65535 s.nv.metroCounter else s.nv.metroCounter } } := by
  unfold State.writeWorking
  rw [State.rebaseMeters_eq]
  dsimp only
  split <;> rfl

/-- An accepted STORE changes the tables, the meters, the counter, and of the store the engine and the status: the commit
of a PERSIST STORE begins on an idle engine and waits behind an operation (R151, R152). -/
theorem State.acceptStore_eq (s : State) (c : Content) :
    s.acceptStore c = { s.writeWorking c with
      store := { s.store with
        underWay := if s.store.latch = .persist then s.store.underWay.or (some (.commit c)) else s.store.underWay,
        queue := if s.store.latch = .persist ∧ s.store.underWay ≠ none then s.store.queue ++ [.commit c]
          else s.store.queue,
        status := if s.store.latch = .persist then .busy else s.store.status } } := by
  unfold State.acceptStore State.queueCommit
  by_cases hl : s.store.latch = .persist
  · cases hu : s.store.underWay with
    | none =>
      rw [if_pos hl, (State.joinQueue_eq _ _).1 (by rw [State.modStore_store, State.writeWorking_store, hu])]
      simp [State.modStore, hl, hu, State.beginOp]
    | some op =>
      rw [if_pos hl, (State.joinQueue_eq _ _).2 (by rw [State.modStore_store, State.writeWorking_store, hu]; exact nofun)]
      simp [State.modStore, hl, hu]
  · rw [State.writeWorking_eq]
    simp [hl]

theorem State.writeWorking_cleared (s : State) (c : Content) : s.cleared.writeWorking c = (s.writeWorking c).cleared := by
  have hmeters : (s.cleared.rebaseMeters c).meters = (s.rebaseMeters c).meters := by cases c <;> rfl
  rw [State.writeWorking_eq, State.writeWorking_eq s, hmeters]
  rfl

theorem State.acceptStore_cleared (s : State) (c : Content) : s.cleared.acceptStore c = (s.acceptStore c).cleared := by
  rw [State.acceptStore_eq, State.acceptStore_eq s, State.writeWorking_cleared]
  rfl

/-- A changed K10 clears the pulse residue of its meter (R58). -/
theorem State.rebaseMeters_meter (s : State) (c : Content) (a : Fin 8) (p : StreamPos) :
    (s.rebaseMeters c).meter a p =
      match c with
      | .armEntry b e => if a = b ∧ e.k10 p ≠ (s.armEntry a).k10 p then { s.meter a p with pulseRes := 0 } else s.meter a p
      | _ => s.meter a p := by
  cases c with
  | armEntry b e =>
    have hrebased : ∀ (m : Meter) (old new : Nat),
        m.rebased old new = if new ≠ old then { m with pulseRes := 0 } else m := fun m old new => by
      unfold Meter.rebased
      by_cases h : old = new
      · rw [if_pos h, if_neg (not_not.2 h.symm)]
      · rw [if_neg h, if_pos (Ne.symm h)]
    simp only [State.rebaseMeters, State.modMeter, State.meter_setMeter, hrebased]
    by_cases hab : b = a
    · subst hab
      cases p <;> simp [ArmEntry.k10]
    · have hba : ¬ a = b := Ne.symm hab
      simp [hab, hba]
  | _ => rfl

theorem exec_store_accepted {s : State} {p : List Byte} {c : Content} (hs : s.Ready) (hright : storeLengthRight p)
    (hlength : p.length ≤ 240) (h : s.storeDecision p = .ok c) :
    exec (.store deviceByte p) s = .next ((s.acceptStore c).answered .store []) := by
  refine exec_accepted (code := .store) hs (Request.admitted_store hright hlength) (by decide) ?_
  replace h : s.cleared.storeDecision p = .ok c := h
  rw [State.serve, h]
  exact congrArg (fun t : State => t.accept .store []) (s.acceptStore_cleared c)

/-- Settles O14: the frame of `State.acceptStore_eq`, then tables, counter, engine and meters one by one. -/
theorem storeAccepted : Obligations.StoreAccepted := by
  intro s c p hs hrange hcarried hset hfree h4 h5 h6 h7
  have hok : s.storeDecision p = .ok c := State.storeDecision_ok.2 ⟨hset, hfree,
    (decodeContent_eq_some hcarried.lengthRight).2 ⟨hrange, hcarried⟩, Bool.eq_false_iff.2 (mt (State.badMode_iff s c).1 h4),
    Bool.eq_false_iff.2 (mt (State.protectedStore_iff s c).1 h5), Bool.eq_false_iff.2 (mt (State.certBars_iff s c).1 h6),
    Bool.eq_false_iff.2 (mt (State.batchesBar_iff s c).1 h7)⟩
  have hlength := (hcarried.length_le hrange).2
  have hcounter : (s.acceptStore c).nv.metroCounter =
      if s.metrological c then satSucc 65535 s.nv.metroCounter else s.nv.metroCounter := by
    rw [State.acceptStore_nv, State.writeWorking_eq]
  have htables : (s.acceptStore c).tables = s.tables.write (s.store.latch == .working) c := s.acceptStore_tables c
  have hmeters : (s.acceptStore c).meters = (s.rebaseMeters c).meters := by
    rw [State.acceptStore_eq, State.writeWorking_eq]
  refine ⟨_, exec_store_accepted hs hcarried.lengthRight (by omega) hok, ?_, fun h => ?_, fun h => ?_, fun k => ?_,
    fun k => ?_, fun hl hu => ?_, fun hl hu => ?_, fun hl => ?_, fun a p => ?_⟩
  · unfold State.answered
    rw [State.acceptStore_eq, State.writeWorking_eq]
    rfl
  · refine hcounter.trans ((if_pos ((s.metrological_iff c).2 h)).trans ?_)
    unfold satSucc
    split <;> omega
  · exact hcounter.trans (if_neg (mt (s.metrological_iff c).1 h))
  · exact (congrArg (fun t : Tables => t.content k) htables).trans (s.tables.write_keeps _ c k).1
  · exact (congrArg (fun t : Tables => t.flags k) htables).trans (s.tables.write_keeps _ c k).2
  · unfold State.answered
    rw [State.acceptStore_eq]
    simp [StoreCtl.decided, hl, hu]
  · unfold State.answered
    rw [State.acceptStore_eq]
    obtain ⟨op, hop⟩ := Option.ne_none_iff_exists'.1 hu
    simp [StoreCtl.decided, hl, hop]
  · unfold State.answered
    rw [State.acceptStore_eq]
    simp [StoreCtl.decided, hl]
  · exact (State.meter_of_meters (s := s.rebaseMeters c) hmeters a p).trans (s.rebaseMeters_meter c a p)

end Sys2Proof.Machine
end

section
/-! PROOFS. Folds over the arms, and the changes that touch batches and start windows alone: permissives, LINK_LOSS and
the lines (R10, R86, R93, R94). -/

namespace Sys2Proof.Machine

/-! ## Folds over the arms -/

/-- In a fold whose steps each change one arm, an arm is changed by its own step, in a state that still holds it as it
was. -/
theorem foldl_arm_at {f : State → Fin 8 → State} (hother : ∀ t a b, b ≠ a → (f t a).arm b = t.arm b)
    {l : List (Fin 8)} (hnodup : l.Nodup) (s : State) {a : Fin 8} (ha : a ∈ l) :
    ∃ before : List (Fin 8), (before.foldl f s).arm a = s.arm a ∧
      (l.foldl f s).arm a = (f (before.foldl f s) a).arm a := by
  have hkeep : ∀ (m : List (Fin 8)) (t : State), a ∉ m → (m.foldl f t).arm a = t.arm a := by
    intro m
    induction m with
    | nil => exact fun _ _ => rfl
    | cons b m ih =>
      intro t hm
      rw [List.mem_cons, not_or] at hm
      exact (ih _ hm.2).trans (hother t b a hm.1)
  obtain ⟨before, after, rfl⟩ := List.mem_iff_append.1 ha
  rw [List.nodup_middle, List.nodup_cons, List.mem_append, not_or] at hnodup
  refine ⟨before, hkeep before s hnodup.1.1, ?_⟩
  rw [List.foldl_append, List.foldl_cons]
  exact hkeep after _ hnodup.1.2

theorem allArms_nodup : allArms.Nodup := by decide

theorem mem_allArms : ∀ a : Fin 8, a ∈ allArms := by decide

/-! ## Changes of batches and start windows -/

/-- Only arms and start windows change. -/
def State.BatchOnly (s t : State) : Prop :=
  ∃ (arms : Vector Arm 8) (windows : Vector StartWindow 4), t = { s with arms := arms, windows := windows }

namespace State.BatchOnly

theorem refl (s : State) : s.BatchOnly s := ⟨s.arms, s.windows, rfl⟩

theorem trans {s t u : State} (h : s.BatchOnly t) (k : t.BatchOnly u) : s.BatchOnly u := by
  obtain ⟨_, _, rfl⟩ := h
  obtain ⟨arms, windows, rfl⟩ := k
  exact ⟨arms, windows, rfl⟩

theorem eq {s t : State} (h : s.BatchOnly t) : t = { s with arms := t.arms, windows := t.windows } := by
  obtain ⟨_, _, rfl⟩ := h
  rfl

theorem ite {s t u : State} {c : Prop} [Decidable c] (h : c → s.BatchOnly t) (k : ¬c → s.BatchOnly u) :
    s.BatchOnly (if c then t else u) := by
  split
  · next e => exact h e
  · next e => exact k e

theorem foldl {β : Type} (f : State → β → State) (h : ∀ s x, State.BatchOnly s (f s x)) (l : List β) (s : State) :
    s.BatchOnly (l.foldl f s) := by
  induction l generalizing s with
  | nil => exact .refl s
  | cons x l ih => exact (h s x).trans (ih _)

theorem modArm (s : State) (a : Fin 8) (f : Arm → Arm) : s.BatchOnly (s.modArm a f) := ⟨_, s.windows, rfl⟩

theorem setWindow (s : State) (l : Fin 4) (w : StartWindow) : s.BatchOnly (s.setWindow l w) := ⟨s.arms, _, rfl⟩

theorem leaveWindow (s : State) (a : Fin 8) : s.BatchOnly (s.leaveWindow a) := by
  unfold State.leaveWindow
  split
  · exact .refl s
  · exact .setWindow s _ _

theorem permissiveLost (s : State) (a : Fin 8) (code : Sense) (c : EndCause) : s.BatchOnly (s.permissiveLost a code c) :=
  .ite (fun _ => (leaveWindow s a).trans (.modArm _ a _)) (fun _ => .modArm s a _)

theorem tryResume (s : State) (a : Fin 8) : s.BatchOnly (s.tryResume a) :=
  .ite (fun _ => .modArm s a _) (fun _ => .refl s)

theorem holdChanged (s : State) (a : Fin 8) (b : Bool) : s.BatchOnly (s.holdChanged a b) :=
  .ite (fun _ => .ite (fun _ => .modArm s a _) (fun _ => .refl s)) (fun _ => .tryResume s a)

end State.BatchOnly

/-- An arm that loses a permissive: START_PENDING it returns, otherwise the cause reaches its batch (R86, R93, R94). -/
def Arm.permissiveLost (x : Arm) (code : Sense) (c : EndCause) : Arm :=
  if x.state = .startPending then x.returned code else x.raiseCause c

theorem State.permissiveLost_arm (s : State) (a b : Fin 8) (code : Sense) (c : EndCause) :
    (s.permissiveLost a code c).arm b = if a = b then (s.arm b).permissiveLost code c else s.arm b := by
  unfold State.permissiveLost State.returnPending Arm.permissiveLost
  by_cases hp : (s.arm a).state = .startPending
  · rw [if_pos hp, State.arm_modArm, State.leaveWindow_arm]
    by_cases hab : a = b
    · subst hab
      rw [if_pos rfl, if_pos rfl, if_pos hp]
    · rw [if_neg hab, if_neg hab]
  · rw [if_neg hp, State.arm_modArm]
    by_cases hab : a = b
    · subst hab
      rw [if_pos rfl, if_pos rfl, if_neg hp]
    · rw [if_neg hab, if_neg hab]

theorem State.permissiveLost_windows {s : State} {a : Fin 8} (h : (s.arm a).state ≠ .startPending) (code : Sense)
    (c : EndCause) : (s.permissiveLost a code c).windows = s.windows := by
  unfold State.permissiveLost
  rw [if_neg h]
  rfl

theorem State.runPermitDropped_eq (s : State) (a : Fin 8) (cause : DropCause) :
    s.runPermitDropped a cause = s.permissiveLost a .runPermitAbsent (match cause with | .rack => .rackEnd | .link => .linkLost) :=
  rfl

/-- What an arm takes of the loss of a permissive, by its state. -/
theorem Arm.permissiveLost_takes {x : Arm} (h : x.state ≠ .startPending) (code : Sense) (c : EndCause) :
    x.Takes (x.permissiveLost code c) c := by
  unfold Arm.permissiveLost
  rw [if_neg h]
  exact x.takes_raiseCause c

theorem Arm.permissiveLost_pending {x : Arm} (h : x.state = .startPending) (code : Sense) (c : EndCause) :
    x.permissiveLost code c = { x with state := .authorized, sense := code } := if_pos h

/-! ## LINK_LOSS -/

theorem State.BatchOnly.levelsChanged (s : State) (a : Fin 8) (old : Levels) : s.BatchOnly (s.levelsChanged a old) := by
  unfold State.levelsChanged
  dsimp only
  generalize hu : (if old.runPermit && !s.rack.levels[a].runPermit
    then s.runPermitDropped a s.rack.levels[a].dropCause else s) = u
  have h1 : s.BatchOnly u := hu ▸ .ite (fun _ => .permissiveLost s a _ _) (fun _ => .refl s)
  exact .ite (fun _ => h1.trans (.holdChanged u a _)) (fun _ => h1)

/-- New levels: the levels held, then a change of batches and start windows. -/
theorem State.BatchOnly.setLevels (s : State) (levels : Vector Levels 8) :
    (s.modRack (fun r => { r with levels := levels })).BatchOnly (s.setLevels levels) :=
  .foldl (fun t a => t.levelsChanged a s.rack.levels[a]) (fun t a => .levelsChanged t a _) allArms _

theorem State.levelsChanged_arm_ne (s : State) {a b : Fin 8} (old : Levels) (h : b ≠ a) :
    (s.levelsChanged a old).arm b = s.arm b := by
  have hhold : ∀ (t : State) (set : Bool), (t.holdChanged a set).arm b = t.arm b := fun t set => by
    unfold State.holdChanged State.tryResume
    split_ifs
    · exact t.arm_modArm_ne _ (Ne.symm h)
    · rfl
    · exact t.arm_modArm_ne _ (Ne.symm h)
    · rfl
  have hdrop : ∀ cause, (s.runPermitDropped a cause).arm b = s.arm b := fun cause => by
    rw [State.runPermitDropped_eq, State.permissiveLost_arm, if_neg (Ne.symm h)]
  unfold State.levelsChanged
  dsimp only
  split <;> split <;> simp only [hhold, hdrop]

/-- Where RUN_PERMIT is absent an arm does not resume (R91). -/
theorem State.tryResume_of_absent {s : State} {a : Fin 8} (h : s.rack.levels[a].runPermit = false) : s.tryResume a = s :=
  if_neg fun hr => by
    have hmay := hr.2
    unfold State.mayResume at hmay
    rw [h] at hmay
    simp at hmay

/-- Levels dropped at link loss: an arm whose RUN_PERMIT was set loses it, any other one stays (R10, R93). -/
theorem State.levelsChanged_linkLost {s : State} {a : Fin 8} {old : Levels} (h : s.rack.levels[a] = old.linkLost) :
    (s.levelsChanged a old).arm a =
      if old.runPermit = true then (s.arm a).permissiveLost .runPermitAbsent .linkLost else s.arm a := by
  have hhold : ∀ t : State, s.BatchOnly t → t.holdChanged a false = t := by
    rintro _ ⟨arms, windows, rfl⟩
    exact State.tryResume_of_absent (congrArg Levels.runPermit h)
  unfold State.levelsChanged
  rw [h]
  by_cases hp : old.runPermit = true
  · have hdrop : s.runPermitDropped a old.linkLost.dropCause = s.permissiveLost a .runPermitAbsent .linkLost := by
      simp [Levels.linkLost, hp, State.runPermitDropped_eq]
    have harm : (s.permissiveLost a .runPermitAbsent .linkLost).arm a =
        (s.arm a).permissiveLost .runPermitAbsent .linkLost := by
      rw [State.permissiveLost_arm, if_pos rfl]
    rw [if_pos hp, ← harm, ← hdrop]
    simp only [Levels.linkLost, hp, Bool.not_false, Bool.and_true, if_true]
    split
    · exact congrArg (fun t : State => t.arm a) (hhold _ (.permissiveLost s a _ _))
    · rfl
  · rw [if_neg hp, Bool.eq_false_iff.2 hp]
    simp only [Bool.false_and, Bool.false_eq_true, if_false, Levels.linkLost]
    split
    · rw [hhold s (.refl s)]
    · rfl

/-- LINK_LOSS at its limit (R9, R10). -/
theorem exec_linkLoss {s : State} (hpow : s.powered = true) (hup : s.rack.up = true)
    (hlimit : s.config.linkLossLimit ≤ s.rack.silence + 1) : exec .linkLoss s = .next s.linkDown := by
  have hdue : s.linkLossDue = true := by
    unfold State.linkLossDue
    rw [hup, decide_eq_true hlimit]
    rfl
  exact congrArg _ ((if_pos hpow).trans (if_pos hdue))

/-- The arms after the link has gone DOWN (R10, R93). -/
theorem State.linkDown_arm (s : State) (a : Fin 8) :
    s.linkDown.arm a =
      if s.rack.levels[a].runPermit = true then (s.arm a).permissiveLost .runPermitAbsent .linkLost else s.arm a := by
  obtain ⟨before, hheld, hown⟩ := foldl_arm_at
    (f := fun t b => t.levelsChanged b s.rack.levels[b]) (fun t b c h => t.levelsChanged_arm_ne _ h) allArms_nodup
    (s.modRack (fun r => { r with levels := Vector.ofFn (fun b => s.rack.levels[b].linkLost) })) (mem_allArms a)
  have hlevels : ((before.foldl (fun t b => t.levelsChanged b s.rack.levels[b]) (s.modRack (fun r =>
      { r with levels := Vector.ofFn (fun b => s.rack.levels[b].linkLost) }))).rack.levels[a]) =
      s.rack.levels[a].linkLost := by
    obtain ⟨_, _, h⟩ := State.BatchOnly.foldl (fun t b => t.levelsChanged b s.rack.levels[b])
      (fun t b => .levelsChanged t b _) before
      (s.modRack (fun r => { r with levels := Vector.ofFn (fun b => s.rack.levels[b].linkLost) }))
    rw [h]
    exact Vector.getElem_ofFn a.isLt
  refine (show s.linkDown.arm a = _ from hown).trans ?_
  rw [State.levelsChanged_linkLost hlevels, hheld]
  rfl

/-- Settles O25: the levels dropped arm by arm, then the channel, the transfers and the prepared flag. -/
theorem linkLossEffects : Obligations.LinkLossEffects := by
  intro s hpow hup hlimit
  have harm := s.linkDown_arm
  have hdropped : ∀ a, s.rack.levels[a].runPermit = true →
      s.linkDown.arm a = (s.arm a).permissiveLost .runPermitAbsent .linkLost := fun a h => (harm a).trans (if_pos h)
  refine ⟨_, exec_linkLoss hpow hup hlimit, ?_, fun a => ?_, fun a => ?_, fun a hp hflow => ?_, fun a hp hclosing => ?_,
    fun a hp hpending => ?_, fun a hidle => ?_⟩
  · unfold State.linkDown
    rw [(State.BatchOnly.setLevels s _).eq]
    rfl
  · unfold State.linkDown
    rw [(State.BatchOnly.setLevels s _).eq]
    refine (Vector.getElem_ofFn a.isLt).trans ?_
    rfl
  · unfold State.linkDown
    rw [(State.BatchOnly.setLevels s _).eq]
    exact Vector.getElem_ofFn a.isLt
  · have hne : (s.arm a).state ≠ .startPending := by
      rintro h
      rw [h] at hflow
      simp [ArmState.flowing] at hflow
    rw [hdropped a hp]
    exact (Arm.permissiveLost_takes hne _ _).1 hflow
  · rw [hdropped a hp]
    exact (Arm.permissiveLost_takes (by rw [hclosing]; decide) _ _).2.1 hclosing
  · rw [hdropped a hp, Arm.permissiveLost_pending hpending]
  · rw [harm a]
    split
    · refine (Arm.permissiveLost_takes ?_ _ _).2.2 ?_ ?_ <;>
        rcases hidle with h | h | h <;> rw [h] <;> simp [ArmState.flowing]
    · rfl

/-! ## The lines -/

/-- How a start window may change while arms leave it: it stays, or being open it stays open or closes empty (R84). -/
def StartWindow.Leaves (w u : StartWindow) : Prop :=
  u = w ∨ (w.isOpen = true ∧ (u.isOpen = true ∨ u = StartWindow.closed))

theorem StartWindow.Leaves.trans {w u v : StartWindow} (h : w.Leaves u) (k : u.Leaves v) : w.Leaves v := by
  obtain rfl | ⟨hopen, h⟩ := h
  · exact k
  · obtain rfl | ⟨-, k⟩ := k
    · exact .inr ⟨hopen, h⟩
    · exact .inr ⟨hopen, k⟩

theorem StartWindow.without_leaves (w : StartWindow) (a : Fin 8) (h : w.isOpen = true) : w.Leaves (w.without a) := by
  unfold StartWindow.without
  dsimp only
  split
  · exact .inr ⟨h, .inr rfl⟩
  · exact .inr ⟨h, .inl h⟩

/-- A permissive's loss changes a window only if the arm waits in it (R86). -/
theorem State.permissiveLost_leaves {s : State} (h : s.WindowsMatch) (a : Fin 8) (code : Sense) (c : EndCause)
    (l : Fin 4) : s.windows[l].Leaves (s.permissiveLost a code c).windows[l] := by
  by_cases hp : (s.arm a).state = .startPending
  · have hleave : (s.permissiveLost a code c).windows = (s.leaveWindow a).windows := by
      unfold State.permissiveLost
      rw [if_pos hp]
      rfl
    rw [hleave]
    unfold State.leaveWindow
    split
    · exact .inl rfl
    · next ctx hctx =>
      by_cases hl : ctx.settings.lane = l
      · subst hl
        obtain ⟨hmem, -, hopen⟩ := h ctx.settings.lane
        have hwaits := (hmem a).2 ⟨hp, ctx, hctx, rfl⟩
        rw [State.setWindow_windows, get_set_self]
        exact StartWindow.without_leaves _ a (hopen.2 (List.ne_nil_of_mem hwaits))
      · rw [State.setWindow_windows, get_set_ne _ _ _ _ hl]
        exact .inl rfl
  · rw [State.permissiveLost_windows hp]
    exact .inl rfl

theorem State.foldl_permissiveLost_leaves (code : Sense) (c : EndCause) (arms : List (Fin 8)) {s : State}
    (h : s.WindowsMatch) (l : Fin 4) :
    (arms.foldl (fun t a => t.permissiveLost a code c) s).WindowsMatch ∧
    s.windows[l].Leaves (arms.foldl (fun t a => t.permissiveLost a code c) s).windows[l] := by
  induction arms generalizing s with
  | nil => exact ⟨h, .inl rfl⟩
  | cons a arms ih =>
    have hnext : (s.permissiveLost a code c).WindowsMatch :=
      (Moves.permissiveLost s a code c).keeps (fun _ _ => Move.windowsMatch) h
    obtain ⟨hmatch, hleaves⟩ := ih hnext
    exact ⟨hmatch, (State.permissiveLost_leaves h a code c l).trans hleaves⟩

/-- A window that agrees with arms none of which is pending is not open (R84). -/
theorem State.WindowsMatch.closed_of_not_pending {s : State} (h : s.WindowsMatch)
    (hnone : ∀ a, (s.arm a).state ≠ .startPending) (l : Fin 4) : s.windows[l].isOpen = false := by
  obtain ⟨hmem, -, hopen⟩ := h l
  rw [← Bool.not_eq_true, hopen, not_not, List.eq_nil_iff_forall_not_mem]
  exact fun a ha => hnone a ((hmem a).1 ha).1

/-- The part with the ESTOP line at a level. -/
def State.setEstop (s : State) (b : Bool) : State := { s with lines := { s.lines with estop := b } }

/-- The part with the PERMIT line of an arm at a level. -/
def State.setPermit (s : State) (a : Fin 8) (b : Bool) : State :=
  { s with lines := { s.lines with permit := s.lines.permit.set a b } }

/-- ESTOP going active reaches every arm (R86, R94). -/
theorem exec_estopChange_active {s : State} (hpow : s.powered = true) (h : s.lines.estop = false) :
    exec (.estopChange true) s = .next (allArms.foldl (fun t a => t.permissiveLost a .estop .estop) (s.setEstop true)) := by
  have hline : s.estopLine true = allArms.foldl (fun t a => t.permissiveLost a .estop .estop) (s.setEstop true) := by
    have hc : (s.powered && true && !s.lines.estop) = true := by rw [hpow, h]; rfl
    unfold State.estopLine
    dsimp only
    rw [if_pos hc]
    rfl
  exact congrArg Host.Outcome.next hline

theorem exec_estopChange_quiet {s : State} {b : Bool} (h : b = false ∨ s.lines.estop = true) :
    exec (.estopChange b) s = .next (s.setEstop b) := by
  have hline : s.estopLine b = s.setEstop b := by
    unfold State.estopLine
    refine if_neg fun hc => ?_
    simp only [Bool.and_eq_true, Bool.not_eq_true'] at hc
    obtain ⟨⟨-, hb⟩, he⟩ := hc
    rcases h with h | h
    · rw [h] at hb; cases hb
    · rw [h] at he; cases he
  exact congrArg Host.Outcome.next hline

/-- A PERMIT line going inactive reaches its arm (R94). -/
theorem exec_permitLineChange_lost {s : State} {a : Fin 8} (hpow : s.powered = true) (h : s.lines.permit[a] = true) :
    exec (.permitLineChange a false) s = .next ((s.setPermit a false).permissiveLost a .permitAbsent .permitLost) := by
  have hline : s.permitLine a false = (s.setPermit a false).permissiveLost a .permitAbsent .permitLost := by
    exact if_pos (by rw [hpow, h]; rfl)
  exact congrArg Host.Outcome.next hline

theorem exec_permitLineChange_quiet {s : State} {a : Fin 8} {b : Bool} (h : b = true ∨ s.lines.permit[a] = false) :
    exec (.permitLineChange a b) s = .next (s.setPermit a b) := by
  have hline : s.permitLine a b = s.setPermit a b := by
    unfold State.permitLine
    refine if_neg fun hc => ?_
    simp only [Bool.and_eq_true, Bool.not_eq_true'] at hc
    obtain ⟨⟨-, hp⟩, hb⟩ := hc
    rcases h with h | h
    · rw [h] at hb; cases hb
    · rw [h] at hp; cases hp
  exact congrArg Host.Outcome.next hline

theorem State.estop_arm (s : State) (a : Fin 8) :
    (allArms.foldl (fun t a => t.permissiveLost a .estop .estop) s).arm a = (s.arm a).permissiveLost .estop .estop := by
  obtain ⟨before, hheld, hown⟩ := foldl_arm_at (f := fun t b => t.permissiveLost b .estop .estop)
    (fun t b c h => by rw [State.permissiveLost_arm, if_neg (Ne.symm h)]) allArms_nodup s (mem_allArms a)
  rw [hown, State.permissiveLost_arm, if_pos rfl, hheld]

/-- A pending arm's window after the loss of its permissive (R86). -/
theorem State.permissiveLost_windows_pending {s : State} {a : Fin 8} (hp : (s.arm a).state = .startPending) {c : Context}
    (hc : (s.arm a).ctx = some c) (code : Sense) (cause : EndCause) :
    (s.permissiveLost a code cause).windows =
      s.windows.set c.settings.lane (s.windows[c.settings.lane].without a) := by
  unfold State.permissiveLost
  rw [if_pos hp]
  unfold State.returnPending State.leaveWindow
  rw [State.modArm_windows, hc]
  rfl

/-- No arm is pending after ESTOP (R86). -/
theorem Arm.permissiveLost_not_pending (x : Arm) (code : Sense) (c : EndCause) :
    (x.permissiveLost code c).state ≠ .startPending := by
  unfold Arm.permissiveLost
  split
  · exact nofun
  · next hne => exact fun h => hne ((Arm.SameBatch.raiseCause x c).pending.1 h)

/-- Settles O36: a lost permissive at one arm or at all, the windows by `StartWindow.Leaves`. -/
theorem linesAct : Obligations.LinesAct := by
  intro s hpow
  refine ⟨fun a b h => exec_permitLineChange_quiet h, fun a h => ⟨_, exec_permitLineChange_lost hpow h, ?_⟩,
    fun h => ⟨_, exec_estopChange_active hpow h, ?_⟩, fun b h => exec_estopChange_quiet h, fun b => rfl⟩
  · have harm := fun b => (s.setPermit a false).permissiveLost_arm a b .permitAbsent .permitLost
    refine ⟨(State.BatchOnly.permissiveLost _ a _ _).eq, fun b hb => (harm b).trans (if_neg (Ne.symm hb)), fun hp => ⟨?_, ?_⟩,
      fun hp => ⟨?_, fun c hc => ?_⟩⟩
    · rw [harm a, if_pos rfl]
      exact Arm.permissiveLost_takes hp _ _
    · exact State.permissiveLost_windows (s := s.setPermit a false) hp _ _
    · rw [harm a, if_pos rfl]
      exact Arm.permissiveLost_pending hp _ _
    · exact State.permissiveLost_windows_pending (s := s.setPermit a false) hp hc _ _
  · have harm := (s.setEstop true).estop_arm
    refine ⟨(State.BatchOnly.foldl _ (fun t a => .permissiveLost t a _ _) allArms _).eq, fun a => ?_, fun hmatch l => ?_⟩
    · rw [harm a]
      exact ⟨fun hp => Arm.permissiveLost_takes hp _ _, fun hp => Arm.permissiveLost_pending hp _ _⟩
    · obtain ⟨hafter, hleaves⟩ := State.foldl_permissiveLost_leaves .estop .estop allArms
        (s := s.setEstop true) hmatch l
      have hshut := hafter.closed_of_not_pending (fun a => (harm a).symm ▸ Arm.permissiveLost_not_pending _ _ _) l
      obtain hsame | ⟨hopen, hagain | hclosed⟩ := hleaves
      · rw [hsame] at hshut ⊢
        exact (if_neg (by rw [show s.windows[l].isOpen = false from hshut]; decide)).symm
      · rw [hagain] at hshut
        cases hshut
      · rw [hclosed]
        exact (if_pos hopen).symm

end Sys2Proof.Machine
end

section
/-! PROOFS. The requests that open, start, withdraw and clear a batch, and SERVICE: what the model decides, in the spec's
terms of slots, roles and start conditions (R61, R72 to R76, R79 to R86, R101, R163). -/

namespace Sys2Proof.Machine

/-! ## Slots and roles (R29, R74) -/

theorem assignment_eq_some {n : Nat} {table : Vector SlotEntry 64} {i : Fin 64} {a : Fin 8} {r : Role} :
    assignment n table i = some (a, r) ↔ Assigned n table i a r := by
  unfold assignment Assigned
  rcases hentry : table[i] with ⟨arm, role⟩
  by_cases h : i.val < n ∧ role ≠ .unused
  · rw [if_pos h]
    constructor
    · intro e
      cases e
      exact ⟨h.1, h.2, rfl⟩
    · rintro ⟨-, -, e⟩
      cases e
      rfl
  · rw [if_neg h]
    refine ⟨nofun, ?_⟩
    rintro ⟨hlt, hrole, e⟩
    cases e
    exact absurd ⟨hlt, hrole⟩ h

theorem State.workingAssignment_eq_some {s : State} {i : Fin 64} {a : Fin 8} {r : Role} :
    s.workingAssignment i = some (a, r) ↔ s.assigns i a r := assignment_eq_some

theorem mem_slotsOf {n : Nat} {table : Vector SlotEntry 64} {j : Fin 64} {a : Fin 8} {r : Role} :
    j ∈ slotsOf n table a r ↔ Assigned n table j a r := by
  rw [← assignment_eq_some]
  simp [slotsOf]

theorem State.mem_slotsOf {s : State} {j : Fin 64} {a : Fin 8} {r : Role} :
    j ∈ slotsOf s.config.slotCount s.slotTable a r ↔ s.assigns j a r := Machine.mem_slotsOf

theorem slotsOf_nodup (n : Nat) (table : Vector SlotEntry 64) (a : Fin 8) (r : Role) : (slotsOf n table a r).Nodup :=
  (List.nodup_finRange 64).filter _

/-- A role is served when exactly one slot holds it (R74). -/
theorem State.roleRefusal_eq_none {s : State} {a : Fin 8} {role : Role} :
    s.roleRefusal a role = none ↔ ∃ k, ∀ j, s.assigns j a role ↔ j = k := by
  have hmem := fun j => State.mem_slotsOf (s := s) (j := j) (a := a) (r := role)
  have hnodup := slotsOf_nodup s.config.slotCount s.slotTable a role
  unfold State.roleRefusal
  generalize slotsOf s.config.slotCount s.slotTable a role = slots at hmem hnodup ⊢
  rcases slots with _ | ⟨k, _ | ⟨l, rest⟩⟩
  · refine ⟨nofun, fun ⟨k, hk⟩ => ?_⟩
    exact absurd ((hmem k).2 ((hk k).2 rfl)) List.not_mem_nil
  · exact ⟨fun _ => ⟨k, fun j => by rw [← hmem, List.mem_singleton]⟩, fun _ => rfl⟩
  · refine ⟨nofun, fun ⟨m, hm⟩ => ?_⟩
    have hk : k = m := (hm k).1 ((hmem k).1 List.mem_cons_self)
    have hl : l = m := (hm l).1 ((hmem l).1 (List.mem_cons_of_mem _ List.mem_cons_self))
    have hne : k ≠ l := fun e => (List.nodup_cons.1 hnodup).1 (e ▸ List.mem_cons_self)
    exact absurd (hk.trans hl.symm) hne

theorem State.roleRefusal_missing {s : State} {a : Fin 8} {role : Role} (h : ∀ j, ¬ s.assigns j a role) :
    s.roleRefusal a role = some .slotMissing := by
  have hnil : slotsOf s.config.slotCount s.slotTable a role = [] :=
    List.eq_nil_iff_forall_not_mem.2 fun j hj => h j (State.mem_slotsOf.1 hj)
  unfold State.roleRefusal
  rw [hnil]

theorem State.roleRefusal_conflict {s : State} {a : Fin 8} {role : Role} {j k : Fin 64} (hne : j ≠ k)
    (hj : s.assigns j a role) (hk : s.assigns k a role) : s.roleRefusal a role = some .slotConflict := by
  have hjmem := State.mem_slotsOf.2 hj
  have hkmem := State.mem_slotsOf.2 hk
  unfold State.roleRefusal
  generalize slotsOf s.config.slotCount s.slotTable a role = slots at hjmem hkmem ⊢
  rcases slots with _ | ⟨l, _ | ⟨m, rest⟩⟩
  · exact absurd hjmem List.not_mem_nil
  · exact absurd ((List.mem_singleton.1 hjmem).trans (List.mem_singleton.1 hkmem).symm) hne
  · rfl

theorem mem_neededRoles {r : Recipe} {role : Role} : role ∈ neededRoles r.additives ↔ needs r role := by
  simp [neededRoles, needs, eq_comm]

/-! ## The checks of AUTHORIZE (R72 to R75) -/

theorem repeatsInjector_eq_false : ∀ {l : List AdditiveItem},
    repeatsInjector l = false ↔ (l.map (·.injector)).Nodup
  | [] => by simp [repeatsInjector]
  | i :: rest => by
    simp [repeatsInjector, repeatsInjector_eq_false (l := rest)]

theorem Recipe.consistent_iff (r : Recipe) : r.consistent = true ↔ r.Fits := by
  unfold Recipe.consistent Recipe.Fits
  rw [Bool.not_eq_true']
  simp only [Bool.or_eq_false_iff, repeatsInjector_eq_false, List.any_eq_false, Bool.and_eq_false_iff,
    decide_eq_false_iff_not, beq_eq_false_iff_ne, Bool.not_eq_false', inRange_iff_between,
    AdditiveItem.nominal, not_lt]
  constructor
  · rintro ⟨⟨⟨⟨hzero, hfrac⟩, hlow⟩, hhigh⟩, hnodup⟩
    exact ⟨fun e => hzero.resolve_left (absurd e), fun e => hfrac.resolve_left (by omega),
      fun i hi => ⟨not_lt.1 fun h => hlow i hi (decide_eq_true h), not_lt.1 fun h => hhigh i hi (decide_eq_true h)⟩,
      hnodup⟩
  · rintro ⟨hzero, hfrac, hdose, hnodup⟩
    refine ⟨⟨⟨⟨?_, ?_⟩, fun i hi h => not_lt.2 (hdose i hi).1 (of_decide_eq_true h)⟩,
      fun i hi h => not_lt.2 (hdose i hi).2 (of_decide_eq_true h)⟩, hnodup⟩
    · by_cases e : r.fraction = 0
      · exact .inr (hzero e)
      · exact .inl e
    · by_cases e : r.fraction = 0
      · exact .inl (by omega)
      · exact .inr (hfrac (by omega))

section
variable {s : State} {a : Fin 8} {r : Recipe}

theorem State.recipeRefusal_invalid (h : ¬ r.Fits) : s.recipeRefusal a r = some .recipeInvalid :=
  if_pos (by rw [← Bool.not_eq_true, Recipe.consistent_iff]; exact h)

theorem State.recipeRefusal_of_fits (h : r.Fits) : s.recipeRefusal a r =
    ((neededRoles r.additives).findSome? (s.roleRefusal a)).or
      (if s.curveMissing a then some .curveInvalid else if s.deviceMissing a r then some .deviceAbsent else none) := by
  unfold State.recipeRefusal
  rw [if_neg (by rw [(Recipe.consistent_iff r).2 h]; nofun)]
  cases (neededRoles r.additives).findSome? (s.roleRefusal a) <;> rfl

/-- The first needed role that is not served decides (R74). -/
theorem State.recipeRefusal_role {pre post : List Role} {role : Role} {code : Sense} (h : r.Fits)
    (hroles : neededRoles r.additives = pre ++ role :: post)
    (hpre : ∀ x ∈ pre, ∃ k, ∀ j, s.assigns j a x ↔ j = k) (hrole : s.roleRefusal a role = some code) :
    s.recipeRefusal a r = some code := by
  have hnone : pre.findSome? (s.roleRefusal a) = none :=
    List.findSome?_eq_none_iff.2 fun x hx => State.roleRefusal_eq_none.2 (hpre x hx)
  rw [State.recipeRefusal_of_fits h, hroles, List.findSome?_append, hnone, List.findSome?_cons, hrole]
  rfl

/-- With every needed role served, the curves and the devices decide (R75). -/
theorem State.recipeRefusal_served (h : r.Fits) (hroles : ∀ role, needs r role → ∃ k, ∀ j, s.assigns j a role ↔ j = k) :
    s.recipeRefusal a r =
      if s.curveMissing a then some .curveInvalid else if s.deviceMissing a r then some .deviceAbsent else none := by
  have hnone : (neededRoles r.additives).findSome? (s.roleRefusal a) = none :=
    List.findSome?_eq_none_iff.2 fun x hx => State.roleRefusal_eq_none.2 (hroles x (mem_neededRoles.1 hx))
  rw [State.recipeRefusal_of_fits h, hnone, Option.none_or]

theorem State.curveMissing_iff : s.curveMissing a = true ↔
    s.tables.curves[(s.armEntry a).wildCurve].work = [] ∨ s.tables.curves[(s.armEntry a).ctrlCurve].work = [] := by
  simp [State.curveMissing]

theorem State.deviceMissing_iff : s.deviceMissing a r = true ↔
    ∃ role, ∃ k : Fin 64, needs r role ∧ s.assigns k a role ∧ s.trunk.slots[k].up = false := by
  simp only [State.deviceMissing, List.any_eq_true, mem_neededRoles, State.mem_slotsOf, Bool.not_eq_true',
    exists_and_left]

end

/-- The fields that an AUTHORIZE payload carries (R79). -/
theorem authorizeFields_payload (form ref0 ref1 ref2 basis : Byte) {preset txid : Nat} (hp : preset < 65536)
    (ht : txid < 4294967296) : authorizeFields (authorizePayload form ref0 ref1 ref2 preset basis txid) =
      { form := form.toNat, ref0 := ref0.toNat, ref1 := ref1.toNat, ref2 := ref2.toNat, preset := preset,
        basis := basis.toNat, txid := txid } := by
  simp only [authorizeFields, authorizePayload, AuthorizeFields.mk.injEq]
  refine ⟨rfl, rfl, rfl, rfl, ?_, by simp [byteAt, beBytes], ?_⟩
  · simp [numAt, slice, readBe, beBytes]
    omega
  · simp [numAt, slice, readBe, beBytes]
    omega

/-- The slot of the reference is the one it names (R61, R72). -/
theorem AuthorizeFields.slot_eq_some {form ref0 ref1 ref2 : Byte} {preset basis txid : Nat} (h : form.toNat ≤ 1)
    (i : Fin 64) :
    AuthorizeFields.slot ⟨form.toNat, ref0.toNat, ref1.toNat, ref2.toNat, preset, basis, txid⟩ = some i ↔
      referenceNames form ref0 ref1 ref2 i := by
  have hzero : form = 0 ↔ form.toNat = 0 := by rw [← BitVec.toNat_inj]; rfl
  have hone : form = 1 ↔ form.toNat = 1 := by rw [← BitVec.toNat_inj]; rfl
  unfold AuthorizeFields.slot referenceNames
  rw [hzero, hone]
  dsimp only
  split_ifs with hform hkey
  · rw [finOf_eq_some]
    omega
  · rw [finOf_eq_some, slotOfKey]
    omega
  · refine ⟨nofun, fun hnames => ?_⟩
    omega

theorem clampNat_zero (n hi : Nat) : clampNat n 0 hi = min n hi := by
  unfold clampNat
  split_ifs <;> omega

/-! ## AUTHORIZE -/

theorem authorize_admitted (a : Fin 8) (form ref0 ref1 ref2 basis : Byte) (preset txid : Nat) :
    ({ code := .authorize, arm := armByte a,
       payload := authorizePayload form ref0 ref1 ref2 preset basis txid } : Request).admitted = true := by
  have harm : RequestCode.authorize.armOk (armByte a).toNat = true := decide_eq_true (armByte_lt a)
  have hlength : (authorizePayload form ref0 ref1 ref2 preset basis txid).length = 11 := by
    simp [authorizePayload, beBytes]
  simp [Request.admitted, hlength, harm, RequestCode.payloadOk]

/-- Settles O37: with none of the refusals in its way, AUTHORIZE opens the batch. -/
theorem authorizeAccepted : Obligations.AuthorizeAccepted := by
  intro s a form ref0 ref1 ref2 basis i r preset txid hs hidle htest henabled hnames hwork hlow hhigh hbasis htxid hfits
    hequipped e close context record opened
  obtain ⟨hroles, hwild, hctrl⟩ := hequipped
  have hform : form.toNat ≤ 1 := by
    obtain ⟨rfl, -⟩ | ⟨rfl, -⟩ := hnames <;> decide
  have hbasisNat : basis.toNat ≤ 1 := by
    obtain rfl | rfl := hbasis <;> decide
  have hfields := authorizeFields_payload form ref0 ref1 ref2 basis (preset := preset) (by omega) htxid
  have hrefusal : s.recipeRefusal a r = none := by
    rw [State.recipeRefusal_served hfits fun role h => (hroles role h).imp fun _ h => h.2]
    rw [if_neg (by rw [State.curveMissing_iff]; exact not_or.2 ⟨hwild, hctrl⟩), if_neg]
    rw [State.deviceMissing_iff]
    rintro ⟨role, k, hneeds, hassigns, hlost⟩
    obtain ⟨j, hup, honly⟩ := hroles role hneeds
    rw [(honly k).1 hassigns, hup] at hlost
    cases hlost
  have hdecide : s.authorizeDecision a (authorizeFields (authorizePayload form ref0 ref1 ref2 preset basis txid)) =
      .ok (i, r) := by
    rw [hfields, State.authorizeDecision_ok]
    exact ⟨hidle, htest, henabled, hform, (AuthorizeFields.slot_eq_some hform i).2 hnames, hwork,
      (inRange_iff_between _ _ _).2 ⟨hlow, hhigh⟩, hbasisNat, hrefusal⟩
  have hcontext : s.contextFor a (authorizeFields (authorizePayload form ref0 ref1 ref2 preset basis txid)) i r =
      context := by
    have hnet : (basis.toNat == 1) = (basis == 1) := by
      obtain rfl | rfl := hbasis <;> rfl
    have hclose : closeAheadUsed (s.arm a).ring e.settings = min close e.settings.closeAheadMax := by
      exact clampNat_zero _ _
    simp only [State.contextFor, hfields, hnet, context, ← hclose, e]
  have hauthorized : (s.arm a).authorized context e (s.meter a .wild).factor (s.meter a .ctrl).factor = _ := rfl
  refine exec_accepted (code := .authorize) hs (authorize_admitted a form ref0 ref1 ref2 basis preset txid) (by decide) ?_
  rw [State.serve_armByte (.inl rfl), State.serveArm]
  change (match s.authorizeDecision a _ with | .error c => _ | .ok ir => _) = _
  rw [hdecide]
  change (s.setArm a ((s.arm a).authorized (s.contextFor a _ i r) _ _ _)).cleared.accept _ _ = _
  rw [hcontext]
  rfl

/-- Settles O38: each condition of `State.authorizeDecision` and of `State.recipeRefusal`, when the ones before it pass. -/
theorem authorizeRefused : Obligations.AuthorizeRefused := by
  intro s a form ref0 ref1 ref2 basis preset txid hs hpreset htxid run no wild ctrl
  have hdecision : ∀ code, s.authorizeDecision a
      ⟨form.toNat, ref0.toNat, ref1.toNat, ref2.toNat, preset, basis.toNat, txid⟩ = .error code → no code := by
    intro code h
    refine exec_refused (code := .authorize) hs (authorize_admitted a form ref0 ref1 ref2 basis preset txid) nofun ?_
    rw [State.serve_armByte (.inl rfl), State.serveArm, authorizeFields_payload _ _ _ _ _ hpreset htxid]
    change (match s.authorizeDecision a _ with | .error c => _ | .ok ir => _) = _
    rw [h]
  refine ⟨fun h => hdecision _ (if_pos h), fun hidle htest => hdecision _ ?_, fun hidle htest hoff => hdecision _ ?_,
    fun hidle htest hon => ?_⟩
  · simp [State.authorizeDecision, hidle, htest]
  · simp [State.authorizeDecision, hidle, htest, hoff]
  have hopen : ∀ f : AuthorizeFields, f.form ≤ 1 → s.authorizeDecision a f =
      match f.slot with
      | none => .error .keyRange
      | some i =>
        match s.tables.recipes[i].work with
        | none => .error .noRecipe
        | some r =>
          if inRange 50 40000 f.preset = false then .error .presetRange
          else if 1 < f.basis then .error .badField
          else
            match s.recipeRefusal a r with
            | some code => .error code
            | none => .ok (i, r) := by
    intro f hf
    rw [State.authorizeDecision, if_neg (by simp [hidle]), if_neg htest, if_neg (by simp [hon]), if_neg (by omega)] <;> rfl
  refine ⟨fun hform => hdecision _ ?_, fun hform hnames => hdecision _ ?_, fun i hnames => ?_⟩
  · simp [State.authorizeDecision, hidle, htest, hon, hform]
  · have hslot : AuthorizeFields.slot
        ⟨form.toNat, ref0.toNat, ref1.toNat, ref2.toNat, preset, basis.toNat, txid⟩ = none :=
      Option.eq_none_iff_forall_ne_some.2 fun i hi => hnames i ((AuthorizeFields.slot_eq_some hform i).1 hi)
    rw [hopen _ hform, hslot]
  have hform : form.toNat ≤ 1 := by
    obtain ⟨rfl, -⟩ | ⟨rfl, -⟩ := hnames <;> decide
  refine ⟨fun hblank => hdecision _ ?_, fun r hwork => ⟨fun hrange => hdecision _ ?_, fun hlow hhigh hbasis =>
    hdecision _ ?_, fun hlow hhigh hbasis => ?_⟩⟩
  · rw [hopen _ hform, (AuthorizeFields.slot_eq_some hform i).2 hnames]
    dsimp only
    rw [hblank]
  · rw [hopen _ hform, (AuthorizeFields.slot_eq_some hform i).2 hnames]
    dsimp only
    rw [hwork]
    refine if_pos (by rw [← Bool.not_eq_true, inRange_iff_between]; omega)
  · rw [hopen _ hform, (AuthorizeFields.slot_eq_some hform i).2 hnames]
    dsimp only
    rw [hwork]
    exact (if_neg (by rw [(inRange_iff_between _ _ _).2 ⟨hlow, hhigh⟩]; nofun)).trans (if_pos hbasis)
  have hrefusal : ∀ code, s.recipeRefusal a r = some code → no code := by
    refine fun code h => hdecision _ ?_
    rw [hopen _ hform, (AuthorizeFields.slot_eq_some hform i).2 hnames]
    dsimp only
    rw [hwork]
    dsimp only
    rw [if_neg (by rw [(inRange_iff_between _ _ _).2 ⟨hlow, hhigh⟩]; nofun), if_neg (by omega), h]
  refine ⟨fun h => hrefusal _ (State.recipeRefusal_invalid h), fun pre post role hfits hroles hpre => ⟨fun hmissing => ?_,
    fun ⟨j, k, hne, hj, hk⟩ => ?_⟩, fun hfits hserved => ⟨fun hcurve => hrefusal _ ?_, fun hwild hctrl hlost =>
    hrefusal _ ?_⟩⟩
  · exact hrefusal _ (State.recipeRefusal_role hfits hroles hpre (State.roleRefusal_missing hmissing))
  · exact hrefusal _ (State.recipeRefusal_role hfits hroles hpre (State.roleRefusal_conflict hne hj hk))
  · rw [State.recipeRefusal_served hfits hserved, if_pos (State.curveMissing_iff.2 hcurve)]
  · rw [State.recipeRefusal_served hfits hserved, if_neg (by rw [State.curveMissing_iff]; exact not_or.2 ⟨hwild, hctrl⟩),
      if_pos (State.deviceMissing_iff.2 hlost)]

/-! ## START (R81 to R83) -/

theorem State.devicesReady_iff {s : State} {a : Fin 8} {c : Context} : s.devicesReady a c = true ↔
    s.trunk.state = .up ∧ ∀ i role, needs c.recipe role → s.assigns i a role → s.trunk.slots[i].up = true := by
  simp only [State.devicesReady, State.neededSlots, Bool.and_eq_true, beq_iff_eq, List.all_eq_true, List.mem_flatMap,
    mem_neededRoles, State.mem_slotsOf]
  exact and_congr_right fun _ => ⟨fun h i role hn ha => h i ⟨role, hn, ha⟩, fun h i ⟨role, hn, ha⟩ => h i role hn ha⟩

/-- The arm may start when no start condition refuses it (R81). -/
theorem State.startRefusal_of_mayStart {s : State} {a : Fin 8} {c : Context} (h : s.MayStart a c) :
    s.startRefusal a c = none := by
  obtain ⟨hrun, hhold, hpermit, hestop, hdevices⟩ := h
  unfold State.startRefusal
  rw [hrun, hhold, hpermit, hestop, State.devicesReady_iff.2 hdevices]
  rfl

theorem State.startRefusal_of_not_mayStart {s : State} {a : Fin 8} {c : Context} (h : ¬ s.MayStart a c) :
    s.startRefusal a c = some (s.startCode a) := by
  unfold State.startRefusal State.startCode
  split_ifs with hrun hhold hpermit hestop hready
  · rfl
  · rfl
  · rfl
  · rfl
  · rfl
  · refine absurd ⟨by simpa using hrun, by simpa using hhold, by simpa using hpermit, by simpa using hestop, ?_⟩ h
    exact State.devicesReady_iff.1 (by simpa using hready)

/-- An arm with its context enters RUNNING (R77, R82). -/
theorem Arm.enterRunning_startedAs {x : Arm} {c : Context} (h : x.ctx = some c) (frame : Nat) :
    x.StartedAs (x.enterRunning frame) c frame := by
  unfold Arm.StartedAs Arm.enterRunning
  rw [h]
  rfl

theorem start_admitted (a : Fin 8) (flag : Byte) :
    ({ code := .start, arm := armByte a, payload := [flag] } : Request).admitted = true :=
  show RequestCode.start.armOk (armByte a).toNat = true from decide_eq_true (armByte_lt a)

theorem boolOf_eq_none {n : Nat} (h : 1 < n) : boolOf n = none := by
  rw [boolOf, if_neg (by omega), if_neg (by omega)]

theorem boolOf_isSome {n : Nat} (h : n ≤ 1) : ∃ b, boolOf n = some b := by
  obtain rfl | rfl : n = 0 ∨ n = 1 := by omega
  · exact ⟨false, rfl⟩
  · exact ⟨true, rfl⟩

/-- What START decides for a right flag byte in AUTHORIZED (R81). -/
theorem State.startDecision_of_authorized {s : State} {a : Fin 8} {n : Nat} {join : Bool} {c : Context}
    (hflag : boolOf n = some join) (hstate : (s.arm a).state = .authorized) (hctx : (s.arm a).ctx = some c) :
    s.startDecision a n = match s.startRefusal a c with
      | some code => .error code
      | none => .ok (c, join) := by
  rw [State.startDecision, hflag]
  dsimp only
  rw [if_neg (not_not.2 hstate), hctx] <;> rfl

/-- Settles O39: START with its start conditions, and the refusals in their order. -/
theorem startDecided : Obligations.StartDecided := by
  intro s a hs
  have hserve : ∀ flag : Byte, s.cleared.serve .start (armByte a) [flag] =
      match s.startDecision a flag.toNat with
      | .error c => s.cleared.deny .start (armByte a) c
      | .ok cj => (s.cleared.startArm a cj.1 cj.2).accept .start [] := fun flag =>
    State.serve_armByte (.inr (.inl rfl))
  have hrefuse : ∀ (flag : Byte) code, s.startDecision a flag.toNat = .error code →
      exec (.start (armByte a) [flag]) s = .next (s.refused .start (armByte a) code) := fun flag code h =>
    exec_refused (code := .start) hs (start_admitted a flag) nofun (by rw [hserve, h])
  refine ⟨fun c hstate hctx hmay => ⟨⟨_, Arm.enterRunning_startedAs hctx _, ?_⟩, fun hout => ?_⟩,
    fun flag => ⟨fun hflag => hrefuse _ _ ?_, fun hflag hstate => hrefuse _ _ ?_,
      fun c hflag hstate hctx hmay => hrefuse _ _ ?_⟩⟩
  · refine exec_accepted (code := .start) hs (start_admitted a 0) (by decide) ?_
    rw [hserve, State.startDecision_of_authorized (join := false) rfl hstate hctx, State.startRefusal_of_mayStart hmay]
    rfl
  · refine exec_accepted (code := .start) hs (start_admitted a 1) (by decide) ?_
    rw [hserve, State.startDecision_of_authorized (join := true) rfl hstate hctx, State.startRefusal_of_mayStart hmay]
    have hpending : (if a ∈ s.windows[c.settings.lane].pending then s.windows[c.settings.lane].pending
        else s.windows[c.settings.lane].pending ++ [a]) = s.windows[c.settings.lane].pending ++ [a] := if_neg hout
    rw [← hpending]
    rfl
  · rw [State.startDecision, boolOf_eq_none hflag]
  · obtain ⟨join, hjoin⟩ := boolOf_isSome hflag
    rw [State.startDecision, hjoin]
    exact if_pos hstate
  · obtain ⟨join, hjoin⟩ := boolOf_isSome hflag
    rw [State.startDecision_of_authorized hjoin hstate hctx, State.startRefusal_of_not_mayStart hmay]

/-! ## CANCEL, CLEAR_FAULT (R85, R101) -/

theorem State.cancelArm_eq_none {s : State} {a : Fin 8} (h : (s.arm a).state ≠ .authorized)
    (h' : (s.arm a).state ≠ .startPending) : s.cancelArm a = none := by
  unfold State.cancelArm
  cases hstate : (s.arm a).state with
  | authorized => exact absurd hstate h
  | startPending => exact absurd hstate h'
  | _ => rfl

/-- Settles O40: CANCEL and CLEAR_FAULT in each arm state. -/
theorem cancelAndClearFaultDecided : Obligations.CancelAndClearFaultDecided := by
  intro s a hs
  have harm : ∀ code : RequestCode, code = .cancel ∨ code = .clearFault →
      ({ code := code, arm := armByte a, payload := [] } : Request).admitted = true := by
    rintro code (rfl | rfl) <;> exact decide_eq_true (armByte_lt a)
  have hcancel : s.cleared.serve .cancel (armByte a) [] =
      match s.cleared.cancelArm a with
      | none => s.cleared.deny .cancel (armByte a) .wrongState
      | some t => t.accept .cancel [] := State.serve_armByte (.inr (.inr (.inl rfl)))
  have hclear : s.cleared.serve .clearFault (armByte a) [] =
      match s.cleared.clearArm a with
      | none => s.cleared.deny .clearFault (armByte a) .wrongState
      | some t => t.accept .clearFault [] := State.serve_armByte (.inr (.inr (.inr (.inl rfl))))
  refine ⟨fun hstate => ?_, fun c hstate hctx => ?_, fun h h' => ?_, fun hstate => ?_, fun hstate => ?_⟩
  · refine exec_accepted (code := .cancel) hs (harm _ (.inl rfl)) (by decide) ?_
    have hsome : s.cleared.cancelArm a = some (s.cleared.modArm a Arm.withdrawn) := by
      rw [State.cancelArm, State.cleared_arm, hstate]
    rw [hcancel, hsome]
    rfl
  · intro rest
    refine exec_accepted (code := .cancel) hs (harm _ (.inl rfl)) (by decide) ?_
    have hsome : s.cleared.cancelArm a =
        some ((s.cleared.leaveWindow a).modArm a (fun x => { x with state := .authorized })) := by
      rw [State.cancelArm, State.cleared_arm, hstate]
    have hleave : s.cleared.leaveWindow a =
        s.cleared.setWindow c.settings.lane (s.windows[c.settings.lane].without a) := by
      rw [State.leaveWindow, State.cleared_arm, hctx]
      rfl
    rw [hcancel, hsome, hleave]
    rfl
  · exact exec_refused (code := .cancel) hs (harm _ (.inl rfl)) nofun
      (by rw [hcancel, State.cancelArm_eq_none (s := s.cleared) h h'])
  · refine exec_accepted (code := .clearFault) hs (harm _ (.inr rfl)) (by decide) ?_
    rw [hclear, State.clearArm, if_pos (by exact hstate)]
    rfl
  · exact exec_refused (code := .clearFault) hs (harm _ (.inr rfl)) nofun
      (by rw [hclear, State.clearArm, if_neg (by exact hstate)])

/-! ## SERVICE (R163) -/

theorem Role.isMeter_iff (r : Role) : r.isMeter = true ↔ r = .wildMeter ∨ r = .ctrlMeter := by
  cases r <;> simp [Role.isMeter, Role.meterPos]

theorem service_admitted (a : Fin 8) (place cls : Byte) {q : List Byte} (h : 1 ≤ q.length) (h' : q.length ≤ 32) :
    ({ code := .service, arm := armByte a, payload := [place, cls] ++ q } : Request).admitted = true := by
  have harm : RequestCode.service.armOk (armByte a).toNat = true := decide_eq_true (armByte_lt a)
  simp [Request.admitted, harm, RequestCode.payloadOk, inRange]
  omega

/-- What SERVICE decides for a filled place, read as the place and the class byte give it (R163). -/
theorem State.serviceDecision_filled {s : State} {a k : Fin 8} {i : Fin 64} {place cls : Byte} {write : Bool}
    {q : List Byte} (hplace : place.toNat = k.val) (hcls : boolOf cls.toNat = some write)
    (hfilled : s.tables.aliases[a].work[k] = some i) : s.serviceDecision a ([place, cls] ++ q) =
      match s.workingAssignment i with
      | none => .error .deviceAbsent
      | some ar =>
        if ar.1 ≠ a ∨ s.trunk.slots[i].up = false then .error .deviceAbsent
        else if s.transfers[a].inFlight then .error .serviceBusy
        else if write ∧ ar.2.isMeter ∧ s.lines.certUnlocked = false then .error .certLocked
        else if write ∧ ar.2.isMeter ∧ (s.arm a).isOpen then .error .batchesOpen
        else .ok (i, write, write && ar.2.isMeter) := by
  have hk : finOf 8 (byteAt ([place, cls] ++ q) 0) = some k := finOf_eq_some.2 hplace
  have hb : boolOf (byteAt ([place, cls] ++ q) 1) = some write := hcls
  rw [State.serviceDecision, hk, hb]
  dsimp only
  rw [hfilled] <;> rfl

/-- Settles O50: SERVICE accepted, and its refusals in their order. -/
theorem serviceAccepted : Obligations.ServiceAccepted := by
  have hserve : ∀ (s : State) (a : Fin 8) (p : List Byte), s.cleared.serve .service (armByte a) p =
      match s.serviceDecision a p with
      | .error c => s.cleared.deny .service (armByte a) c
      | .ok d => s.cleared.acceptService a d.1 d.2.1 d.2.2 (p.drop 2) := fun s a p =>
    State.serve_armByte (.inr (.inr (.inr (.inr (.inr rfl)))))
  refine ⟨fun s a k i r write q hs hlow hhigh hfilled hassigns hup hidle hmeter => ?_,
    fun s a place cls q hs hlow hhigh => ?_⟩
  · have hk : (BitVec.ofNat 8 k.val).toNat = k.val := by simp; omega
    have hcls : boolOf (if write then 1 else 0 : Byte).toNat = some write := by cases write <;> rfl
    have hdecide : s.serviceDecision a ([BitVec.ofNat 8 k.val, if write then 1 else 0] ++ q) =
        .ok (i, write, write && r.isMeter) := by
      rw [State.serviceDecision_filled hk hcls hfilled, State.workingAssignment_eq_some.2 hassigns]
      dsimp only
      rw [if_neg (by rw [hup]; simp), if_neg (by rw [Transfer.inFlight, hidle]; nofun), if_neg, if_neg]
      · rintro ⟨hw, hr, hopen⟩
        rw [(hmeter hw (r.isMeter_iff.1 hr)).2] at hopen
        cases hopen
      · rintro ⟨hw, hr, hlocked⟩
        rw [(hmeter hw (r.isMeter_iff.1 hr)).1] at hlocked
        cases hlocked
    refine (exec_admitted s .service (armByte a) _ hs (service_admitted a _ _ hlow hhigh)).trans
      (congrArg Host.Outcome.next ?_)
    rw [hserve, hdecide]
    have hraise : (write && r.isMeter) = true ↔ write = true ∧ (r = .wildMeter ∨ r = .ctrlMeter) := by
      rw [Bool.and_eq_true, Role.isMeter_iff]
    unfold State.acceptService
    dsimp only
    by_cases hcount : (write && r.isMeter) = true
    · rw [if_pos hcount, if_pos (hraise.1 hcount)]
      rfl
    · rw [if_neg hcount, if_neg (hcount ∘ hraise.2)]
      rfl
  · intro no
    have hrefuse : ∀ code, s.serviceDecision a ([place, cls] ++ q) = .error code → no code := fun code h =>
      exec_refused (code := .service) hs (service_admitted a place cls hlow hhigh) nofun (by rw [hserve, h])
    refine ⟨fun hbad => hrefuse _ ?_, fun k hplace hcls => ⟨fun hempty => hrefuse _ ?_, fun i hfilled => ?_⟩⟩
    · rw [State.serviceDecision]
      obtain hplace | hcls := hbad
      · rw [finOf, dif_neg (by exact not_lt.2 hplace)]
      · have hnone : boolOf (byteAt ([place, cls] ++ q) 1) = none := boolOf_eq_none hcls
        rw [hnone]
        cases finOf 8 (byteAt ([place, cls] ++ q) 0) <;> rfl
    · obtain ⟨write, hwrite⟩ := boolOf_isSome hcls
      have hk : finOf 8 (byteAt ([place, cls] ++ q) 0) = some k := finOf_eq_some.2 hplace
      have hb : boolOf (byteAt ([place, cls] ++ q) 1) = some write := hwrite
      rw [State.serviceDecision, hk, hb]
      dsimp only
      rw [hempty]
    obtain ⟨write, hwrite⟩ := boolOf_isSome hcls
    have hdecision := State.serviceDecision_filled (q := q) hplace hwrite hfilled
    refine ⟨fun habsent => hrefuse _ ?_, fun r hassigns hup => ?_⟩
    · rw [hdecision]
      rcases hwork : s.workingAssignment i with _ | ⟨b, r⟩
      · rfl
      · refine if_pos (habsent.imp_left fun hnone e => hnone r ?_)
        dsimp only at e
        rw [← State.workingAssignment_eq_some, hwork, e]
    rw [State.workingAssignment_eq_some.2 hassigns] at hdecision
    dsimp only at hdecision
    rw [if_neg (by rw [hup]; simp)] at hdecision
    refine ⟨fun hbusy => hrefuse _ ?_, fun hidle hcls hrole => ?_⟩
    · rw [hdecision, if_pos (by simpa [Transfer.inFlight] using hbusy)]
    subst hcls
    cases hwrite
    have hmeter := r.isMeter_iff.2 hrole
    rw [if_neg (by rw [Transfer.inFlight, hidle]; nofun)] at hdecision
    refine ⟨fun hlocked => hrefuse _ ?_, fun hunlocked hopen => hrefuse _ ?_⟩
    · rw [hdecision, if_pos ⟨rfl, hmeter, hlocked⟩]
    · rw [hdecision, if_neg (by simp [hunlocked]), if_pos ⟨rfl, hmeter, hopen⟩]

end Sys2Proof.Machine
end

section
/-! PROOFS. What the close of an answer window and the end of the answer interval do to the trunk (R21 to R28, R37, R38):
a valid word and an invalid outcome. -/

namespace Sys2Proof.Machine

/-- A part of the state that no step of a fold changes. -/
theorem foldl_keeps {β γ : Type} (g : State → γ) {f : State → β → State} (h : ∀ t x, g (f t x) = g t) (l : List β)
    (s : State) : g (l.foldl f s) = g s := by
  induction l generalizing s with
  | nil => rfl
  | cons x l ih => exact (ih _).trans (h s x)

/-! ## The Service Relay leaves the trunk, the windows and the other arms -/

section
variable (s : State) (a : Fin 8)

theorem State.abandonTransfer_keeps (code : Sense) :
    (s.abandonTransfer a code).trunk = s.trunk ∧ (s.abandonTransfer a code).windows = s.windows ∧
    (s.abandonTransfer a code).choices = s.choices ∧ (s.abandonTransfer a code).meters = s.meters ∧
    (s.abandonTransfer a code).store = s.store ∧ ∀ b, b ≠ a → (s.abandonTransfer a code).arm b = s.arm b := by
  obtain ⟨-, h⟩ | ⟨-, h⟩ := s.abandonTransfer_cases a code
  · rw [h]
    exact ⟨rfl, rfl, rfl, rfl, rfl, fun b hb =>
      (s.setTransfer a Transfer.released).arm_modArm_ne (fun x => x.note code) (Ne.symm hb)⟩
  · rw [h]
    exact ⟨rfl, rfl, rfl, rfl, rfl, fun _ _ => rfl⟩

theorem State.releaseReply_keeps (t : Transfer) :
    s.releaseReply a t = { s with transfers := s.transfers.set a Transfer.released,
                                  rack := (s.releaseReply a t).rack } := by
  obtain ⟨-, h⟩ | ⟨-, h⟩ := s.releaseReply_cases a t <;> rw [h] <;> rfl

/-- The service fields of a word reach its transfer and the transaction alone (R165). -/
theorem State.serviceWord_keeps (i : Fin 64) (b : Byte) (f : ServiceFlags) :
    s.serviceWord a i b f =
      { s with transfers := (s.serviceWord a i b f).transfers, rack := (s.serviceWord a i b f).rack } := by
  unfold State.serviceWord
  dsimp only
  split_ifs
  · rw [State.releaseReply_keeps]
  · rfl
  · rfl

/-- A transfer at the answer interval end (R165, R166). -/
theorem State.serviceTick_keeps :
    (s.serviceTick a).trunk = s.trunk ∧ (s.serviceTick a).windows = s.windows ∧
    (s.serviceTick a).meters = s.meters ∧ ∀ b, b ≠ a → (s.serviceTick a).arm b = s.arm b := by
  unfold State.serviceTick
  dsimp only
  split_ifs
  · obtain ⟨htrunk, hwindows, -, hmeters, -, harms⟩ := s.abandonTransfer_keeps a .serviceTimeout
    exact ⟨htrunk, hwindows, hmeters, harms⟩
  · exact ⟨rfl, rfl, rfl, fun _ _ => rfl⟩
  · exact ⟨rfl, rfl, rfl, fun _ _ => rfl⟩

end

/-! ## The trunk at the answer interval end -/

/-- The trunk after a trunk-down event (R27, R28). -/
def Trunk.gone (t : Trunk) : Trunk := { t with state := .down, crcErrors := 0, staleErrors := 0 }

@[simp] theorem State.trunkDownEvent_trunk (s : State) : s.trunkDownEvent.trunk = s.trunk.gone :=
  (FieldSide.foldl _ (fun t a => .modArm t a _) allArms _).trunk

/-- The trunk after the silence count has taken an answer interval (R27). -/
def Trunk.silenced (t : Trunk) : Trunk :=
  let t1 := { t with silence := satSucc Config.lossFrames t.silence }
  if t.validTaken then t else if t.state = .up ∧ t1.silence = Config.lossFrames then t1.gone else t1

theorem State.silenceStep_trunk (s : State) : s.silenceStep.trunk = s.trunk.silenced := by
  unfold State.silenceStep Trunk.silenced
  dsimp only
  by_cases hvalid : s.trunk.validTaken = true
  · rw [if_pos hvalid, if_pos hvalid]
  by_cases hgone : s.trunk.state = .up ∧ satSucc Config.lossFrames s.trunk.silence = Config.lossFrames
  · rw [if_neg hvalid, if_neg hvalid, if_pos (by exact hgone), if_pos hgone, State.trunkDownEvent_trunk]
    rfl
  · rw [if_neg hvalid, if_neg hvalid, if_neg (by exact hgone), if_neg hgone]
    rfl

/-- The trunk after the echo test has taken an answer interval (R37, R38). -/
def Trunk.tested (t : Trunk) : Trunk :=
  let t1 := { t.testResult with test := { t.testResult.test with state := .complete } }
  if t.testOver then (if t.silence < Config.lossFrames then { t1 with state := .up } else t1.gone) else t.testResult

theorem Trunk.testResult_eq (t : Trunk) : t.testResult = { t with test := { t.test with
    errors := if t.testFrame && t.testFailed then satSucc 65535 t.test.errors else t.test.errors } } := by
  unfold Trunk.testResult
  split <;> rfl

theorem State.testStep_trunk (s : State) : s.testStep.trunk = s.trunk.tested := by
  have hover : s.trunk.testResult.testOver = s.trunk.testOver := by rw [Trunk.testResult_eq]; rfl
  have hsilence : s.trunk.testResult.silence = s.trunk.silence := by rw [Trunk.testResult_eq]
  unfold State.testStep Trunk.tested State.endTest
  dsimp only
  rw [State.modTrunk_trunk, hover]
  split_ifs <;> simp_all

/-- The trunk after an answer interval's end (R21, R27, R37, R38). -/
theorem State.intervalEnd_trunk (s : State) :
    s.intervalEnd.trunk = ({ s.trunk with answering := false } : Trunk).silenced.tested := by
  unfold State.intervalEnd
  dsimp only
  rw [(FieldSide.foldl (fun t a => (t.settleUnassigned a .wild).settleUnassigned a .ctrl)
      (fun t a => (FieldSide.settleUnassigned t a _).trans (.settleUnassigned _ a _)) allArms _).trunk,
    foldl_keeps State.trunk fun t a => (t.serviceTick_keeps a).1,
    (FieldSide.foldl State.tickWindow FieldSide.tickWindow allLanes _).trunk, State.testStep_trunk,
    State.silenceStep_trunk]
  rfl

/-- The interval of a frame with a valid word ends with the slots, the silence count and the error counters as they were,
and the trunk UP unless a test holds it (R27, R38). -/
theorem Trunk.tested_of_heard {t : Trunk} (hvalid : t.validTaken = true) (hsilence : t.silence < 25) :
    ∃ state test, t.silenced.tested = { t with state := state, test := test } ∧ (t.state = .up → state = .up) := by
  have hsame : t.silenced = t := if_pos hvalid
  rw [hsame, Trunk.tested, Trunk.testResult_eq]
  by_cases hover : t.testOver = true
  · rw [if_pos hover, if_pos (show t.silence < Config.lossFrames from hsilence)]
    exact ⟨_, _, rfl, fun _ => rfl⟩
  · rw [if_neg hover]
    exact ⟨_, _, rfl, id⟩

/-- An answer interval's end leaves every slot's receive state (R21). -/
theorem Trunk.tested_slots (t : Trunk) : t.silenced.tested.slots = t.slots ∧
    t.silenced.tested.testFailed = t.testFailed := by
  have hsilenced : ∀ u : Trunk, u.silenced.slots = u.slots ∧ u.silenced.testFailed = u.testFailed := fun u => by
    unfold Trunk.silenced
    dsimp only
    split_ifs <;> exact ⟨rfl, rfl⟩
  have htested : ∀ u : Trunk, u.tested.slots = u.slots ∧ u.tested.testFailed = u.testFailed := fun u => by
    unfold Trunk.tested
    rw [Trunk.testResult_eq]
    dsimp only
    split_ifs <;> exact ⟨rfl, rfl⟩
  obtain ⟨hslots, hfailed⟩ := hsilenced t
  obtain ⟨hslots', hfailed'⟩ := htested t.silenced
  exact ⟨hslots'.trans hslots, hfailed'.trans hfailed⟩

/-! ## The close of an assigned slot's window -/

/-- The close of an assigned slot's window, the last of its frame too (R21). -/
theorem exec_answerWindowClose_assigned {s : State} {i : Fin 64} {a : Fin 8} {r : Role} (h : s.WindowOpen i a r)
    (w : List Byte) :
    exec (.answerWindowClose w) s = .next
      (let u := (s.modTrunk (fun t => { t with nextWindow := t.nextWindow + 1 })).closeAssigned i a r w
       if s.trunk.slotCount ≤ i.val + 1 then u.intervalEnd else u) := by
  have hslot := State.frameAssignment_of_windowOpen h
  obtain ⟨hpower, hanswering, hwindow, -, -, -⟩ := h
  have hlt : s.trunk.nextWindow < 64 := hwindow ▸ i.isLt
  have hi : (⟨s.trunk.nextWindow, hlt⟩ : Fin 64) = i := Fin.ext hwindow
  have hclose : s.closeWindow w =
      if s.trunk.slotCount ≤ i.val + 1 then (s.closeSlot i w).intervalEnd else s.closeSlot i w := by
    rw [State.closeWindow, if_pos hanswering, dif_pos hlt, hi, hwindow]
  have hassigned : s.closeSlot i w =
      (s.modTrunk (fun t => { t with nextWindow := t.nextWindow + 1 })).closeAssigned i a r w := by
    rw [State.closeSlot, hslot]
  rw [hassigned] at hclose
  exact congrArg Host.Outcome.next ((if_pos hpower).trans hclose)

/-- The trunk after a valid word in a slot (R23 to R28, R37). -/
def Trunk.heard (t : Trunk) (i : Fin 64) (w : List Byte) : Trunk :=
  let t1 := t.noteTest i .valid w
  { t1 with slots := t1.slots.set i { toggle := some (wordToggle w), invalids := 0, up := true },
            silence := 0, validTaken := true, state := if t1.state = .down then .up else t1.state }

/-- The state when a valid word of a slot is handed over: the trunk has taken it (R24 to R27). -/
def State.wordTaken (s : State) (i : Fin 64) (w : List Byte) : State := s.modTrunk (fun t => t.heard i w)

/-- A valid word: the trunk takes it, outside a test it is handed over, its service fields go to the relay, and a meter may
settle (R24, R37, R42). -/
theorem State.closeAssigned_valid {s : State} {i : Fin 64} {a : Fin 8} {r : Role} {w : List Byte} (hgood : wordGood w)
    (hfresh : s.trunk.slots[i].toggle ≠ some (wordToggle w)) :
    s.closeAssigned i a r w =
      ((if s.trunk.testFrame then s.wordTaken i w else (s.wordTaken i w).handOver a r w).serviceWord a i
        (wordServiceByte w) (wordService w)).settleAtClose i a r := by
  unfold State.closeAssigned
  dsimp only
  rw [classifyWord_eq_valid hgood hfresh, if_pos rfl]
  rfl

/-- An outcome that is not valid: counted, then the slot's receive state, then a meter may settle (R23, R26, R37). -/
theorem State.closeAssigned_invalid {s : State} {i : Fin 64} {a : Fin 8} {r : Role} {w : List Byte}
    (h : classifyWord s.trunk.slots[i].toggle w ≠ .valid) :
    s.closeAssigned i a r w =
      ((s.modTrunk (fun t => (t.countOutcome (classifyWord s.trunk.slots[i].toggle w)).noteTest i
        (classifyWord s.trunk.slots[i].toggle w) w)).slotInvalid i a r).settleAtClose i a r := by
  unfold State.closeAssigned
  exact congrArg (fun u : State => u.settleAtClose i a r) (if_neg h)

theorem State.closeAssigned_valid_trunk {s : State} {i : Fin 64} {a : Fin 8} {r : Role} {w : List Byte}
    (hgood : wordGood w) (hfresh : s.trunk.slots[i].toggle ≠ some (wordToggle w)) :
    (s.closeAssigned i a r w).trunk = s.trunk.heard i w := by
  rw [State.closeAssigned_valid hgood hfresh, (FieldSide.settleAtClose _ i a r).trunk, State.serviceWord_keeps]
  dsimp only
  split_ifs
  · rfl
  · exact (FieldSide.handOver _ a r w).trunk

/-- Settles O30: the trunk after the word by `State.closeAssigned_valid_trunk`, kept by the interval's end. -/
theorem validWordTaken : Obligations.ValidWordTaken := by
  intro s i a r w hopen hgood hfresh
  have ⟨_, _, hwindow, _⟩ := hopen
  have hexec := exec_answerWindowClose_assigned hopen w
  generalize hs1 : s.modTrunk (fun t => { t with nextWindow := t.nextWindow + 1 }) = s1 at hexec
  have htrunk : (s1.closeAssigned i a r w).trunk = s1.trunk.heard i w :=
    State.closeAssigned_valid_trunk hgood (by rw [← hs1]; exact hfresh)
  have hside : TrunkSide s (s1.closeAssigned i a r w) :=
    hs1 ▸ (TrunkSide.modTrunk s _).trans (.closeAssigned _ i a r w)
  generalize s1.closeAssigned i a r w = u at hexec htrunk hside
  dsimp only at hexec
  have hend : ∃ t, exec (.answerWindowClose w) s = .next t ∧ TrunkSide s t ∧ ∃ answering state test,
      t.trunk = { u.trunk with answering := answering, state := state, test := test } ∧
      (u.trunk.state = .up → state = .up) := by
    refine ⟨_, hexec, ?_⟩
    split_ifs
    · refine ⟨hside.trans (.intervalEnd u), ?_⟩
      rw [State.intervalEnd_trunk]
      obtain ⟨state, test, h, hup⟩ := Trunk.tested_of_heard (t := { u.trunk with answering := false })
        (by rw [htrunk]; rfl) (by rw [htrunk]; exact Nat.zero_lt_succ 24)
      exact ⟨false, state, test, h, hup⟩
    · exact ⟨hside, _, _, _, rfl, id⟩
  obtain ⟨t, hexec, hkept, answering, state, test, ht, hup⟩ := hend
  rw [htrunk, ← hs1] at ht hup
  refine ⟨t, hexec, ?_, fun j hj => ?_, ?_, fun htest => ?_, ?_, ?_, ?_, ?_, ?_, ?_, hkept.nv, hkept.tables, hkept.lines,
    hkept.pending⟩
  · rw [ht]
    exact get_set_self _ _ _
  · rw [ht]
    exact get_set_ne _ _ _ _ (Ne.symm hj)
  · rw [ht]; rfl
  · rw [ht]
    refine hup ?_
    change (if s.trunk.state = .down then TrunkState.up else s.trunk.state) = .up
    cases hstate : s.trunk.state with
    | up => rfl
    | down => rfl
    | test => exact absurd hstate htest
  · rw [ht]; rfl
  · rw [ht]; rfl
  · rw [ht]; rfl
  · rw [ht]; rfl
  · rw [ht]
    refine congrArg (fun b => s.trunk.testFailed || (s.trunk.testFrame && b)) ?_
    exact (decide_not (p := numAt w 1 2 = testPattern s.trunk.frameCounter i.val)).symm
  · rw [ht]
    exact congrArg (· + 1) hwindow

/-! ## Invalid outcomes -/

theorem satSucc_eq_min (ceiling n : Nat) : satSucc ceiling n = min ceiling (n + 1) := by
  unfold satSucc
  split_ifs <;> omega

/-- The events of a lost slot leave the trunk (R26). -/
theorem State.slotLostEvent_trunk (s : State) (i : Fin 64) (a : Fin 8) (r : Role) :
    (s.slotLostEvent i a r).trunk = s.trunk := by
  have hservice : ((s.modArm a (fun x => x.slotLost r)).serviceSlotLost a i).trunk = s.trunk := by
    unfold State.serviceSlotLost
    split_ifs
    · exact (State.abandonTransfer_keeps _ a .deviceAbsent).1
    · rfl
  unfold State.slotLostEvent
  dsimp only
  split
  · exact hservice
  · rw [State.modMeter_trunk, hservice]

/-- A receive state after an invalid outcome (R26). -/
def SlotRx.missed (x : SlotRx) : SlotRx :=
  { toggle := x.toggle, invalids := if x.up then min 25 (x.invalids + 1) else 25,
    up := x.up && decide (x.invalids + 1 < 25) }

theorem State.slotInvalid_trunk (s : State) (i : Fin 64) (a : Fin 8) (r : Role) :
    (s.slotInvalid i a r).trunk = { s.trunk with slots := s.trunk.slots.set i s.trunk.slots[i].missed } := by
  have hset : ∀ x : SlotRx, x = s.trunk.slots[i].missed →
      (s.setSlot i x).trunk = { s.trunk with slots := s.trunk.slots.set i s.trunk.slots[i].missed } := by
    rintro _ rfl
    rfl
  unfold State.slotInvalid State.loseSlot
  dsimp only
  generalize s.trunk.slots[i] = x at hset ⊢
  by_cases hup : x.up = true
  · by_cases hlose : 25 ≤ x.invalids + 1
    · rw [if_pos (by rw [SlotRx.losesNext, hup]; exact decide_eq_true hlose), State.slotLostEvent_trunk]
      refine hset _ ?_
      rw [SlotRx.missed, if_pos hup, hup, decide_eq_false (by omega), Nat.min_eq_left hlose]
      rfl
    · rw [if_neg (by rw [SlotRx.losesNext, hup]; simpa [Config.lossFrames] using hlose), if_pos hup]
      refine hset _ ?_
      rw [SlotRx.missed, if_pos hup, hup, decide_eq_true (by omega), Nat.min_eq_right (by omega)]
      rfl
  · rw [Bool.not_eq_true] at hup
    rw [if_neg (by rw [SlotRx.losesNext, hup]; nofun), if_neg (by rw [hup]; nofun)]
    refine hset _ ?_
    rw [SlotRx.missed, hup]
    rfl

/-- The classification of a window's outcome that is not valid (R23). -/
theorem classifyWord_invalid {last : Option Bool} {w : List Byte}
    (h : w.length ≠ 8 ∨ ¬ wordGood w ∨ last = some (wordToggle w)) : classifyWord last w =
      if w.length = 8 then (if crc8 (w.take 7) = w.getD 7 0 then .stale else .crc) else .silent := by
  unfold classifyWord wordCrcGood
  by_cases hlength : w.length = 8
  · rw [if_neg (not_not.2 hlength), if_pos hlength]
    by_cases hcrc : crc8 (w.take 7) = w.getD 7 0
    · have hstale := (h.resolve_left (not_not.2 hlength)).resolve_left (not_not.2 ⟨hlength, hcrc⟩)
      rw [if_neg (by rw [hcrc]; simp), if_pos hstale, if_pos hcrc]
    · rw [if_pos (by simpa using hcrc), if_neg hcrc]
  · rw [if_pos hlength, if_neg hlength]

theorem classifyWord_ne_valid {last : Option Bool} {w : List Byte}
    (h : w.length ≠ 8 ∨ ¬ wordGood w ∨ last = some (wordToggle w)) : classifyWord last w ≠ .valid := by
  rw [classifyWord_invalid h]
  split_ifs <;> decide

/-- The trunk error counters after an invalid outcome (R23, R28). -/
theorem Trunk.countOutcome_invalid (t : Trunk) {last : Option Bool} {w : List Byte}
    (h : w.length ≠ 8 ∨ ¬ wordGood w ∨ last = some (wordToggle w)) : t.countOutcome (classifyWord last w) =
      { t with
        crcErrors := if w.length = 8 ∧ ¬ crc8 (w.take 7) = w.getD 7 0 then min 255 (t.crcErrors + 1) else t.crcErrors,
        staleErrors :=
          if w.length = 8 ∧ crc8 (w.take 7) = w.getD 7 0 then min 255 (t.staleErrors + 1) else t.staleErrors } := by
  rw [classifyWord_invalid h]
  by_cases hlength : w.length = 8
  · by_cases hcrc : crc8 (w.take 7) = w.getD 7 0
    · simp only [if_pos hlength, if_pos hcrc, if_pos (And.intro hlength hcrc), if_neg fun k : _ ∧ ¬ _ => k.2 hcrc,
        Trunk.countOutcome, satSucc_eq_min]
    · simp only [if_pos hlength, if_neg hcrc, if_pos (And.intro hlength hcrc), if_neg fun k : _ ∧ _ => hcrc k.2,
        Trunk.countOutcome, satSucc_eq_min]
  · simp only [if_neg hlength, if_neg fun k : _ ∧ _ => hlength k.1, Trunk.countOutcome]

/-- Settles O31: the counters by `Trunk.countOutcome_invalid`, the receive state by `State.slotInvalid_trunk`. -/
theorem invalidOutcomeCounted : Obligations.InvalidOutcomeCounted := by
  intro s i a r w hopen _ hinvalid
  have ⟨_, _, hwindow, _⟩ := hopen
  have hexec := exec_answerWindowClose_assigned hopen w
  generalize hs1 : s.modTrunk (fun t => { t with nextWindow := t.nextWindow + 1 }) = s1 at hexec
  have hslot : s1.trunk.slots[i] = s.trunk.slots[i] := by rw [← hs1]; rfl
  rw [← hslot] at hinvalid
  have htrunk : (s1.closeAssigned i a r w).trunk = { s.trunk with
      nextWindow := i.val + 1, testFailed := s.trunk.testFailed || s.trunk.testFrame,
      crcErrors := (if w.length = 8 ∧ ¬ crc8 (w.take 7) = w.getD 7 0
        then min 255 (s.trunk.crcErrors + 1) else s.trunk.crcErrors),
      staleErrors := (if w.length = 8 ∧ crc8 (w.take 7) = w.getD 7 0
        then min 255 (s.trunk.staleErrors + 1) else s.trunk.staleErrors),
      slots := s.trunk.slots.set i s.trunk.slots[i].missed } := by
    rw [State.closeAssigned_invalid (classifyWord_ne_valid hinvalid), (FieldSide.settleAtClose _ i a r).trunk,
      State.slotInvalid_trunk, State.modTrunk_trunk, Trunk.countOutcome_invalid _ hinvalid, Trunk.noteTest]
    have hfails : testFails (classifyWord s1.trunk.slots[i].toggle w) (testPattern s1.trunk.frameCounter i.val) w = true :=
      Bool.or_eq_true_iff.2 (.inl (bne_iff_ne.2 (classifyWord_ne_valid hinvalid)))
    have hfailed : (s.trunk.testFailed || (s.trunk.testFrame && true)) = (s.trunk.testFailed || s.trunk.testFrame) := by
      rw [Bool.and_true]
    dsimp only
    rw [hfails, ← hs1, ← congrArg (· + 1) hwindow, ← hfailed]
    rfl
  have hside : TrunkSide s (s1.closeAssigned i a r w) :=
    hs1 ▸ (TrunkSide.modTrunk s _).trans (.closeAssigned _ i a r w)
  generalize s1.closeAssigned i a r w = u at hexec htrunk hside
  dsimp only at hexec
  have hend : ∃ t, exec (.answerWindowClose w) s = .next t ∧ TrunkSide s t ∧ t.trunk.slots = u.trunk.slots ∧
      t.trunk.testFailed = u.trunk.testFailed ∧ (i.val + 1 < s.trunk.slotCount → t = u) := by
    refine ⟨_, hexec, ?_⟩
    split_ifs with hlast
    · refine ⟨hside.trans (.intervalEnd u), ?_, ?_, fun h => absurd h (by omega)⟩
      · rw [State.intervalEnd_trunk, (Trunk.tested_slots _).1]
      · rw [State.intervalEnd_trunk, (Trunk.tested_slots _).2]
    · exact ⟨hside, rfl, rfl, fun _ => rfl⟩
  obtain ⟨t, hexec, hkept, hslots, hfailed, hmiddle⟩ := hend
  rw [htrunk] at hslots hfailed
  refine ⟨t, hexec, fun j hj => ?_, ?_, hfailed, fun hlt => ?_, hkept.tables, hkept.nv, hkept.lines, hkept.pending⟩
  · rw [hslots]
    exact get_set_ne _ _ _ _ (Ne.symm hj)
  · rw [hslots]
    exact get_set_self _ _ _
  · rw [hfailed, hslots, hmiddle hlt, htrunk]

end Sys2Proof.Machine
end

section
/-! PROOFS. What the batch and the metering of one arm leave of the others: arms, meters and start windows. The rest of
what they leave is the `FieldSide` of each operation. -/

namespace Sys2Proof.Machine

/-- A change of the batch of one arm: no other arm, no start window and no meter changes. -/
structure OneBatch (a : Fin 8) (s t : State) : Prop where
  windows : t.windows = s.windows
  meters : t.meters = s.meters
  arms : ∀ b, b ≠ a → t.arm b = s.arm b

namespace OneBatch

variable {a : Fin 8}

theorem refl (s : State) : OneBatch a s s := ⟨rfl, rfl, fun _ _ => rfl⟩

theorem trans {s t u : State} (h : OneBatch a s t) (k : OneBatch a t u) : OneBatch a s u :=
  ⟨k.windows.trans h.windows, k.meters.trans h.meters, fun b hb => (k.arms b hb).trans (h.arms b hb)⟩

theorem ite {s t u : State} {c : Prop} [Decidable c] (h : c → OneBatch a s t) (k : ¬c → OneBatch a s u) :
    OneBatch a s (if c then t else u) := by
  split
  · next e => exact h e
  · next e => exact k e

theorem foldl {β : Type} (f : State → β → State) (h : ∀ s x, OneBatch a s (f s x)) (l : List β) (s : State) :
    OneBatch a s (l.foldl f s) := by
  induction l generalizing s with
  | nil => exact .refl s
  | cons x l ih => exact (h s x).trans (ih _)

theorem modArm (s : State) (f : Arm → Arm) : OneBatch a s (s.modArm a f) :=
  ⟨rfl, rfl, fun _ hb => s.arm_modArm_ne f (Ne.symm hb)⟩

theorem requestSave (s : State) (b : Fin 8) : OneBatch a s (s.requestSave b) := by
  unfold State.requestSave State.joinQueue
  split
  · exact .refl s
  · split <;> exact ⟨rfl, rfl, fun _ _ => rfl⟩

theorem tryResume (s : State) : OneBatch a s (s.tryResume a) := .ite (fun _ => .modArm s _) (fun _ => .refl s)

theorem finalize (s : State) : OneBatch a s (s.finalize a) := by
  unfold State.finalize
  split
  · exact (modArm s _).trans (.requestSave _ a)
  · exact .refl s

theorem settle (s : State) : OneBatch a s (s.settle a) := by
  unfold State.settle
  split
  · exact (modArm s _).trans (.tryResume _)
  · exact .finalize s
  · exact .refl s

theorem settleExpire (s : State) : OneBatch a s (s.settleExpire a) := (modArm s _).trans (.finalize _)

theorem armAct (s : State) : OneBatch a s (s.armAct a) := by
  unfold State.armAct
  split
  · exact .modArm s _
  · exact .ite (fun _ => .modArm s _) (fun _ => .ite
      (fun _ => ((modArm s Arm.holdTick).trans (.modArm _ _)).trans (.settle _))
      (fun _ => (modArm s Arm.holdTick).trans (.modArm _ _)))
  · exact .ite (fun _ => .modArm s _) (fun _ => .modArm s _)
  · exact .ite (fun _ => (modArm s _).trans (.settle _)) (fun _ => .ite
      (fun _ => (modArm s _).trans (.settleExpire _)) (fun _ => (modArm s _).trans (.modArm _ _)))
  all_goals exact .refl s

theorem runBlock (received : ArmState) (s : State) (b : Block) : OneBatch a s (State.runBlock a received s b) := by
  cases b with
  | armController => exact .armAct s
  | ratioController => exact modArm s (fun x => x.ratioAct (received == .running) (s.meter a .wild).flow)
  | additiveScheduler => exact .modArm s _

theorem armFrameClosed (s : State) : OneBatch a s (s.armFrameClosed a) := by
  unfold State.armFrameClosed
  refine .ite (fun _ => .refl s) (fun _ => .ite (fun _ => .foldl _ (runBlock _) _ s) (fun _ => ?_))
  exact OneBatch.trans (t := { s with choices := s.choices + 1 }) ⟨rfl, rfl, fun _ _ => rfl⟩ (.foldl _ (runBlock _) _ _)

end OneBatch

/-- A change of one arm and its meters: no other arm or its meters and no start window changes. -/
structure OneArm (a : Fin 8) (s t : State) : Prop where
  windows : t.windows = s.windows
  arms : ∀ b, b ≠ a → t.arm b = s.arm b
  meters : ∀ b q, b ≠ a → t.meter b q = s.meter b q

theorem OneBatch.oneArm {a : Fin 8} {s t : State} (h : OneBatch a s t) : OneArm a s t :=
  ⟨h.windows, h.arms, fun b q _ => by cases q <;> simp only [State.meter, h.meters]⟩

namespace OneArm

variable {a : Fin 8}

theorem refl (s : State) : OneArm a s s := ⟨rfl, fun _ _ => rfl, fun _ _ _ => rfl⟩

theorem trans {s t u : State} (h : OneArm a s t) (k : OneArm a t u) : OneArm a s u :=
  ⟨k.windows.trans h.windows, fun b hb => (k.arms b hb).trans (h.arms b hb),
   fun b q hb => (k.meters b q hb).trans (h.meters b q hb)⟩

theorem ite {s t u : State} {c : Prop} [Decidable c] (h : c → OneArm a s t) (k : ¬c → OneArm a s u) :
    OneArm a s (if c then t else u) := by
  split
  · next e => exact h e
  · next e => exact k e

theorem modArm (s : State) (f : Arm → Arm) : OneArm a s (s.modArm a f) := (OneBatch.modArm s f).oneArm

theorem setMeter (s : State) (p : StreamPos) (m : Meter) : OneArm a s (s.setMeter a p m) :=
  ⟨s.setMeter_windows a p m, fun b _ => s.setMeter_arm a p m b,
   fun _ _ hb => s.meter_setMeter_ne m fun h => hb h.1.symm⟩

theorem settleMeter (s : State) (p : StreamPos) : OneArm a s (s.settleMeter a p) := by
  unfold State.settleMeter
  dsimp only
  refine OneArm.trans (t := s.modMeter a p (fun m => m.settled s.trunk.frameCounter s.timebase.periodMs))
    (setMeter s p _) ?_
  generalize s.modMeter a p (fun m => m.settled s.trunk.frameCounter s.timebase.periodMs) = v
  have hcold := fun u : State => OneArm.ite (a := a) (c := s.config.tempHoldLimit ≤ (u.meter a p).age)
    (fun _ => modArm u (fun x => x.raiseCause .tempLost)) (fun _ => .refl u)
  exact .ite (fun _ => (hcold _).trans (OneBatch.armFrameClosed _).oneArm) (fun _ => hcold _)

theorem settleUnassigned (s : State) (p : StreamPos) : OneArm a s (s.settleUnassigned a p) :=
  .ite (fun _ => .settleMeter s p) (fun _ => .refl s)

theorem settleAtClose (s : State) (i : Fin 64) (r : Role) : OneArm a s (s.settleAtClose i a r) := by
  unfold State.settleAtClose
  split
  · exact .refl s
  · exact .ite (fun _ => .refl s) (fun _ => .settleMeter s _)

theorem accrueUnauthorized (s : State) (iv : Nat) : OneArm a s (s.accrueUnauthorized a iv) := by
  unfold State.accrueUnauthorized
  dsimp only
  refine .ite (fun _ => ?_) (fun _ => .modArm s _)
  split
  · exact ((modArm s _).trans (.modArm _ _)).trans (OneBatch.requestSave _ a).oneArm
  · exact (modArm s _).trans (.modArm _ _)
  · exact .modArm s _

theorem routeIncrement (s : State) (p : StreamPos) (i : Increment) : OneArm a s (s.routeIncrement a p i) :=
  .ite (fun _ => .modArm s _) (fun _ => .accrueUnauthorized s _)

theorem processSample (s : State) (p : StreamPos) (w : MeterWord) : OneArm a s (s.processSample a p w) := by
  unfold State.processSample
  dsimp only
  have hrouted : OneArm a s ((s.setMeter a p (s.processMeter a p w).1).routeIncrement a p (s.processMeter a p w).2) :=
    (setMeter s p _).trans (.routeIncrement _ p _)
  have hcaused := OneArm.ite (a := a) (c := (!s.isSeed a p && s.implausible a p w) = true)
    (fun _ => hrouted.trans (modArm _ (fun x => x.raiseCause .pulseImplausible))) (fun _ => hrouted)
  exact .ite (fun _ => hcaused.trans (.modArm _ _)) (fun _ => hcaused)

theorem handOver (s : State) (r : Role) (w : List Byte) : OneArm a s (s.handOver a r w) := by
  have hsample : ∀ p m, OneArm a s (s.meterSample a p m) := fun p m =>
    .ite (fun _ => .processSample s p m) (fun _ => .refl s)
  unfold State.handOver
  split
  · exact .refl s
  · exact hsample _ _
  · exact hsample _ _
  · exact .ite (fun _ => .modArm s _) (fun _ => .refl s)
  · exact .ite (fun _ => .modArm s _) (fun _ => .refl s)
  · exact .modArm s _

end OneArm

end Sys2Proof.Machine
end

section
/-! PROOFS. What the end of the answer interval does to arms, start windows and transfers: TRUNK_DOWN, TEST_END,
START_WINDOW_EXPIRY, alone and at the close of a frame's last window (R21, R27, R38, R84, R165). -/

namespace Sys2Proof.Machine

/-- In a fold whose steps each change one piece, a piece is changed by its own step, in a state that still holds it as it
was. -/
theorem foldl_own {ι γ : Type} (get : State → ι → γ) {f : State → ι → State}
    (hother : ∀ t i j, j ≠ i → get (f t i) j = get t j) {l : List ι} (hnodup : l.Nodup) (s : State) {i : ι} (hi : i ∈ l) :
    ∃ before : List ι, get (before.foldl f s) i = get s i ∧ get (l.foldl f s) i = get (f (before.foldl f s) i) i := by
  have hkeep : ∀ (m : List ι) (t : State), i ∉ m → get (m.foldl f t) i = get t i := by
    intro m
    induction m with
    | nil => exact fun _ _ => rfl
    | cons j m ih =>
      intro t hm
      rw [List.mem_cons, not_or] at hm
      exact (ih _ hm.2).trans (hother t j i hm.1)
  obtain ⟨before, after, rfl⟩ := List.mem_iff_append.1 hi
  rw [List.nodup_middle, List.nodup_cons, List.mem_append, not_or] at hnodup
  refine ⟨before, hkeep before s hnodup.1.1, ?_⟩
  rw [List.foldl_append, List.foldl_cons]
  exact hkeep after _ hnodup.1.2

/-! ## The trunk goes DOWN (R27, R95) -/

theorem foldl_modArm_eq (f : Arm → Arm) (l : List (Fin 8)) (s : State) :
    l.foldl (fun t a => t.modArm a f) s = { s with arms := (l.foldl (fun t a => t.modArm a f) s).arms } := by
  induction l generalizing s with
  | nil => rfl
  | cons a l ih => exact (ih _).trans rfl

theorem State.trunkDownEvent_eq (s : State) :
    s.trunkDownEvent = { s with arms := s.trunkDownEvent.arms, trunk := s.trunk.gone } := foldl_modArm_eq _ allArms _

theorem State.trunkDownEvent_arm (s : State) (a : Fin 8) :
    s.trunkDownEvent.arm a = (s.arm a).raiseCause .trunkLost := by
  obtain ⟨before, hheld, hown⟩ := foldl_arm_at (f := fun t b => t.modArm b (fun x => x.raiseCause .trunkLost))
    (fun t b c h => t.arm_modArm_ne _ (Ne.symm h)) allArms_nodup (s.modTrunk Trunk.gone) (mem_allArms a)
  refine (show s.trunkDownEvent.arm a = _ from hown).trans ?_
  rw [State.arm_modArm_self, hheld]
  rfl

/-- A cause raised twice is a cause raised once (R97). -/
theorem Arm.raiseCause_raiseCause (x : Arm) (c : EndCause) : (x.raiseCause c).raiseCause c = x.raiseCause c := by
  have hjoined : ∀ y : Arm, y.endReason = some c ∨ c ∈ y.secondary → y.addSecondary c = y := fun y h => if_pos h
  by_cases hflow : x.state.flowing
  · obtain ⟨hstate, hreason, -⟩ := (x.takes_raiseCause c).1 hflow
    rw [Arm.raiseCause_closing _ c hstate]
    exact hjoined _ (.inl hreason)
  by_cases hclosing : x.state = .closing
  · rw [Arm.raiseCause_closing x c hclosing]
    by_cases h : x.endReason = some c ∨ c ∈ x.secondary
    · rw [hjoined x h, Arm.raiseCause_closing x c hclosing, hjoined x h]
    · have hadd : x.addSecondary c = (if c.latching then
          ({ x with secondary := x.secondary ++ [c] } : Arm).note c.sense else { x with secondary := x.secondary ++ [c] }) :=
        if_neg h
      have hadded : (x.addSecondary c).state = .closing ∧ c ∈ (x.addSecondary c).secondary := by
        rw [hadd]
        split_ifs <;> exact ⟨hclosing, List.mem_append_right _ (List.mem_singleton_self c)⟩
      rw [Arm.raiseCause_closing _ c hadded.1]
      exact hjoined _ (.inr hadded.2)
  · have hsame := (x.takes_raiseCause c).2.2 hflow hclosing
    rw [hsame, hsame]

/-! ## Start windows (R84) -/

/-- A pending arm at the expiry of its window, under the start conditions of a state (R84). -/
def State.expires (s : State) (a : Fin 8) (x : Arm) : Arm :=
  if x.state = .startPending then
    match x.ctx with
    | none => x
    | some c =>
      match s.startRefusal a c with
      | none => x.enterRunning s.trunk.frameCounter
      | some code => x.returned code
  else x

theorem State.expirePending_eq (s : State) (a : Fin 8) :
    s.expirePending a = { s with arms := (s.expirePending a).arms } := by
  unfold State.expirePending
  split
  · split
    · rfl
    · split <;> rfl
  · rfl

theorem State.expirePending_arm (s : State) (a b : Fin 8) :
    (s.expirePending a).arm b = if a = b then s.expires b (s.arm b) else s.arm b := by
  by_cases hab : a = b
  · subst hab
    rw [if_pos rfl, State.expires, State.expirePending]
    by_cases hp : (s.arm a).state = .startPending
    · rw [if_pos hp, if_pos hp]
      cases hctx : (s.arm a).ctx with
      | none => rfl
      | some c => cases hrefusal : s.startRefusal a c <;> simp only [State.arm_modArm_self, hrefusal]
    · rw [if_neg hp, if_neg hp]
  · rw [if_neg hab]
    exact (s.expirePending_cases a).1 b (Ne.symm hab)

theorem State.expires_of_not_pending (s : State) (a : Fin 8) {x : Arm} (h : x.state ≠ .startPending) :
    s.expires a x = x := if_neg h

theorem State.expires_expires (s : State) (a : Fin 8) (x : Arm) : s.expires a (s.expires a x) = s.expires a x := by
  by_cases hp : x.state = .startPending
  · cases hctx : x.ctx with
    | none =>
      have hsame : s.expires a x = x := by rw [State.expires, if_pos hp, hctx]
      rw [hsame, hsame]
    | some c =>
      refine s.expires_of_not_pending a ?_
      rw [State.expires, if_pos hp, hctx]
      dsimp only
      cases s.startRefusal a c <;> simp [Arm.enterRunning, Arm.returned]
  · rw [s.expires_of_not_pending a hp, s.expires_of_not_pending a hp]

/-- What the start conditions read of the state (R81). -/
theorem State.expires_congr {s t : State} (hrack : t.rack = s.rack) (hlines : t.lines = s.lines)
    (htables : t.tables = s.tables) (hstate : t.trunk.state = s.trunk.state) (hslots : t.trunk.slots = s.trunk.slots)
    (hframe : t.trunk.frameCounter = s.trunk.frameCounter) (a : Fin 8) (x : Arm) : t.expires a x = s.expires a x := by
  have hrefusal : ∀ c, t.startRefusal a c = s.startRefusal a c := fun c => by
    unfold State.startRefusal State.devicesReady State.neededSlots State.config State.slotTable
    rw [hrack, hlines, htables, hstate, hslots]
  unfold State.expires
  simp only [hrefusal, hframe]

/-- A change of the field side leaves the start conditions (R81). -/
theorem FieldSide.expires {s t : State} (h : FieldSide s t) (a : Fin 8) (x : Arm) : t.expires a x = s.expires a x :=
  State.expires_congr h.rack h.lines h.tables (by rw [h.trunk]) (by rw [h.trunk]) (by rw [h.trunk]) a x

theorem State.foldl_expirePending_arm (pending : List (Fin 8)) (s : State) (a : Fin 8) :
    (pending.foldl State.expirePending s).arm a = if a ∈ pending then s.expires a (s.arm a) else s.arm a := by
  induction pending generalizing s with
  | nil => rfl
  | cons b rest ih =>
    rw [List.foldl_cons, ih, (FieldSide.expirePending s b).expires, State.expirePending_arm]
    by_cases hb : b = a
    · subst hb
      rw [if_pos rfl, if_pos List.mem_cons_self, s.expires_expires, ite_self]
    · rw [if_neg hb]
      simp only [List.mem_cons, Ne.symm hb, false_or]

theorem State.expireWindow_eq (s : State) (l : Fin 4) :
    s.expireWindow l = { s with arms := (s.expireWindow l).arms, windows := s.windows.set l StartWindow.closed } := by
  have hfold : ∀ (pending : List (Fin 8)) (t : State), pending.foldl State.expirePending t =
      { t with arms := (pending.foldl State.expirePending t).arms } := by
    intro pending
    induction pending with
    | nil => exact fun t => rfl
    | cons b rest ih =>
      intro t
      rw [List.foldl_cons, ih (t.expirePending b), State.expirePending_eq]
  unfold State.expireWindow
  rw [hfold]
  rfl

theorem State.expireWindow_arm (s : State) (l : Fin 4) (a : Fin 8) :
    (s.expireWindow l).arm a = if a ∈ s.windows[l].pending then s.expires a (s.arm a) else s.arm a :=
  s.foldl_expirePending_arm _ a

/-- A start window after the count of an answer interval's end (R84). -/
def StartWindow.ticked (w : StartWindow) : StartWindow :=
  if w.expiresNext then StartWindow.closed else if w.isOpen then { w with remaining := w.remaining - 1 } else w

theorem State.tickWindow_windows (s : State) (l m : Fin 4) :
    (s.tickWindow l).windows[m] = if l = m then s.windows[m].ticked else s.windows[m] := by
  have hset : ∀ w : StartWindow, w = s.windows[l].ticked →
      (s.windows.set l w)[m] = if l = m then s.windows[m].ticked else s.windows[m] := by
    rintro _ rfl
    by_cases hlm : l = m
    · subst hlm
      rw [if_pos rfl, get_set_self]
    · rw [if_neg hlm, get_set_ne _ _ _ _ hlm]
  unfold State.tickWindow
  by_cases hexpires : s.windows[l].expiresNext = true
  · rw [if_pos hexpires, State.expireWindow_eq]
    exact hset _ (if_pos hexpires).symm
  · rw [if_neg hexpires]
    by_cases hopen : s.windows[l].isOpen = true
    · rw [if_pos hopen]
      exact hset _ ((if_neg hexpires).trans (if_pos hopen)).symm
    · rw [if_neg hopen]
      have hsame : s.windows[l].ticked = s.windows[l] := (if_neg hexpires).trans (if_neg hopen)
      by_cases hlm : l = m
      · subst hlm
        rw [if_pos rfl, hsame]
      · rw [if_neg hlm]

theorem State.tickWindow_arm (s : State) (l : Fin 4) (a : Fin 8) :
    (s.tickWindow l).arm a =
      if s.windows[l].expiresNext = true ∧ a ∈ s.windows[l].pending then s.expires a (s.arm a) else s.arm a := by
  unfold State.tickWindow
  by_cases hexpires : s.windows[l].expiresNext = true
  · rw [if_pos hexpires, State.expireWindow_arm]
    simp only [hexpires, true_and]
  · have hno : ¬ (s.windows[l].expiresNext = true ∧ a ∈ s.windows[l].pending) := fun h => hexpires h.1
    rw [if_neg hexpires, if_neg hno]
    split_ifs <;> rfl

/-- An arm after the counts of start windows: it expires with a window it waits in (R84). -/
theorem State.foldl_tickWindow_arm {lanes : List (Fin 4)} (hnodup : lanes.Nodup) (s : State) (a : Fin 8) :
    (lanes.foldl State.tickWindow s).arm a =
      if ∃ l ∈ lanes, s.windows[l].expiresNext = true ∧ a ∈ s.windows[l].pending then s.expires a (s.arm a)
      else s.arm a := by
  induction lanes generalizing s with
  | nil => exact (if_neg (by simp)).symm
  | cons l lanes ih =>
    obtain ⟨hl, hnodup⟩ := List.nodup_cons.1 hnodup
    have hwindows : ∀ m ∈ lanes, (s.tickWindow l).windows[m] = s.windows[m] := fun m hm => by
      have hlm : l ≠ m := fun e => hl (e ▸ hm)
      rw [State.tickWindow_windows, if_neg hlm]
    have hexists : (∃ m ∈ lanes, (s.tickWindow l).windows[m].expiresNext = true ∧ a ∈ (s.tickWindow l).windows[m].pending) ↔
        ∃ m ∈ lanes, s.windows[m].expiresNext = true ∧ a ∈ s.windows[m].pending := by
      refine exists_congr fun m => and_congr_right fun hm => ?_
      rw [hwindows m hm]
    rw [List.foldl_cons, ih hnodup, (FieldSide.tickWindow s l).expires, State.tickWindow_arm]
    simp only [hexists, List.exists_mem_cons_iff]
    by_cases hfirst : s.windows[l].expiresNext = true ∧ a ∈ s.windows[l].pending
    · rw [if_pos hfirst, if_pos (Or.inl hfirst), s.expires_expires, ite_self]
    · rw [if_neg hfirst]
      simp only [hfirst, false_or]

theorem allLanes_nodup : allLanes.Nodup := by decide

theorem mem_allLanes : ∀ l : Fin 4, l ∈ allLanes := by decide

/-! ## The parts of the interval's end -/

/-- The silence count after an answer interval (R27). -/
def Trunk.silenceAfter (t : Trunk) : Nat := if t.validTaken then t.silence else satSucc Config.lossFrames t.silence

/-- The trunk goes DOWN at the interval's end, by the end of a test or by its silence (R27, R38). -/
def Trunk.goesDown (t : Trunk) : Bool :=
  (t.testOver && decide (Config.lossFrames ≤ t.silenceAfter)) ||
  (!t.validTaken && t.state == .up && t.silenceAfter == Config.lossFrames)

/-- The silence takes the trunk DOWN at the interval's end (R27). -/
def Trunk.silenceDown (t : Trunk) : Bool := !t.validTaken && t.state == .up && t.silenceAfter == Config.lossFrames

theorem Trunk.silenced_eq (t : Trunk) : t.silenced =
    if t.silenceDown then { t with silence := t.silenceAfter }.gone else { t with silence := t.silenceAfter } := by
  unfold Trunk.silenced Trunk.silenceDown Trunk.silenceAfter
  dsimp only
  by_cases hvalid : t.validTaken = true
  · rw [if_pos hvalid, if_pos hvalid, if_neg (by rw [hvalid]; simp)]
  · rw [if_neg hvalid, if_neg hvalid, Bool.eq_false_iff.2 hvalid]
    by_cases hdown : t.state = .up ∧ satSucc Config.lossFrames t.silence = Config.lossFrames
    · rw [if_pos hdown, hdown.1, hdown.2]
      rfl
    · rw [if_neg hdown, if_neg (by simpa using hdown)]

/-- The trunk after an answer interval's end (R27, R37, R38). -/
theorem Trunk.ended_eq (t : Trunk) : t.silenced.tested =
    { t with
      silence := t.silenceAfter,
      state := if t.goesDown then .down else if t.testOver then .up else t.state,
      crcErrors := if t.goesDown then 0 else t.crcErrors, staleErrors := if t.goesDown then 0 else t.staleErrors,
      test := { t.test with
        state := if t.testOver then .complete else t.test.state,
        errors := if t.testFrame && t.testFailed then satSucc 65535 t.test.errors else t.test.errors } } := by
  have hdown : t.goesDown = ((t.testOver && decide (Config.lossFrames ≤ t.silenceAfter)) || t.silenceDown) := rfl
  rw [Trunk.silenced_eq, hdown]
  by_cases hsilent : t.silenceDown = true
  · have hcount : t.silenceAfter = Config.lossFrames := by
      unfold Trunk.silenceDown at hsilent
      simp only [Bool.and_eq_true, beq_iff_eq] at hsilent
      exact hsilent.2
    rw [if_pos hsilent, hsilent, Bool.or_true, hcount, Trunk.tested, Trunk.testResult_eq]
    by_cases hover : t.testOver = true
    · rw [if_pos (by exact hover), if_neg (by exact Nat.lt_irrefl _), hover]
      rfl
    · rw [if_neg (by exact hover), Bool.eq_false_iff.2 hover]
      rfl
  · rw [if_neg hsilent, Bool.eq_false_iff.2 hsilent, Bool.or_false, Trunk.tested, Trunk.testResult_eq]
    by_cases hover : t.testOver = true
    · rw [if_pos (by exact hover), hover, Bool.true_and]
      by_cases hheard : t.silenceAfter < Config.lossFrames
      · rw [if_pos (by exact hheard), decide_eq_false (Nat.not_le.2 hheard)]
        rfl
      · rw [if_neg (by exact hheard), decide_eq_true (Nat.not_lt.1 hheard)]
        rfl
    · rw [if_neg (by exact hover), Bool.eq_false_iff.2 hover]
      rfl

section
variable (s : State)

/-- The state after the trunk's part of the interval's end (R27, R37, R38). -/
def State.trunkEnded : State := (s.modTrunk (fun t => { t with answering := false })).silenceStep.testStep

theorem State.trunkEnded_eq : s.trunkEnded = { s with
    arms := s.trunkEnded.arms, trunk := ({ s.trunk with answering := false } : Trunk).silenced.tested } := by
  have hsilence : ∀ u : State, u.silenceStep = { u with arms := u.silenceStep.arms, trunk := u.trunk.silenced } := fun u => by
    rw [← State.silenceStep_trunk]
    unfold State.silenceStep
    dsimp only
    split_ifs
    · rfl
    · rw [State.trunkDownEvent_eq]
      rfl
    · rfl
  have htest : ∀ u : State, u.testStep = { u with arms := u.testStep.arms, trunk := u.trunk.tested } := fun u => by
    rw [← State.testStep_trunk]
    unfold State.testStep State.endTest
    dsimp only
    split_ifs
    · rfl
    · rw [State.trunkDownEvent_eq]
      rfl
    · rfl
  unfold State.trunkEnded
  rw [htest, hsilence]
  rfl

/-- An arm after the trunk's part of the interval's end (R95). -/
theorem State.trunkEnded_arm (a : Fin 8) :
    s.trunkEnded.arm a = if s.trunk.goesDown then (s.arm a).raiseCause .trunkLost else s.arm a := by
  have hsilence : ∀ u : State, u.silenceStep.arm a =
      if u.trunk.silenceDown then (u.arm a).raiseCause .trunkLost else u.arm a := fun u => by
    unfold State.silenceStep Trunk.silenceDown Trunk.silenceAfter
    dsimp only
    by_cases hvalid : u.trunk.validTaken = true
    · rw [if_pos hvalid, hvalid]
      rfl
    · rw [if_neg hvalid, Bool.eq_false_iff.2 hvalid]
      by_cases hdown : u.trunk.state = .up ∧ satSucc Config.lossFrames u.trunk.silence = Config.lossFrames
      · rw [if_pos (by exact hdown), State.trunkDownEvent_arm, if_pos (by simpa using hdown)]
        rfl
      · rw [if_neg (by exact hdown), if_neg (by simpa using hdown)]
        rfl
  have htest : ∀ u : State, u.testStep.arm a = if u.trunk.testOver && decide (Config.lossFrames ≤ u.trunk.silence)
      then (u.arm a).raiseCause .trunkLost else u.arm a := fun u => by
    have hover : u.trunk.testResult.testOver = u.trunk.testOver := by rw [Trunk.testResult_eq]; rfl
    have hcount : u.trunk.testResult.silence = u.trunk.silence := by rw [Trunk.testResult_eq]
    unfold State.testStep State.endTest
    dsimp only
    rw [State.modTrunk_trunk, hover, hcount]
    by_cases h : u.trunk.testOver = true
    · rw [if_pos h, h, Bool.true_and]
      by_cases hheard : u.trunk.silence < Config.lossFrames
      · rw [if_pos hheard, decide_eq_false (Nat.not_le.2 hheard)]
        rfl
      · rw [if_neg hheard, decide_eq_true (Nat.not_lt.1 hheard), State.trunkDownEvent_arm]
        rfl
    · rw [if_neg h, Bool.eq_false_iff.2 h]
      rfl
  have hover : ({ s.trunk with answering := false } : Trunk).silenced.testOver = s.trunk.testOver := by
    rw [Trunk.silenced_eq]
    split_ifs <;> rfl
  have hcount : ({ s.trunk with answering := false } : Trunk).silenced.silence = s.trunk.silenceAfter := by
    rw [Trunk.silenced_eq]
    split_ifs <;> rfl
  unfold State.trunkEnded
  rw [htest, State.silenceStep_trunk, State.modTrunk_trunk, hover, hcount, hsilence, State.modTrunk_trunk, State.modTrunk_arm]
  have hdown : s.trunk.goesDown =
    ((s.trunk.testOver && decide (Config.lossFrames ≤ s.trunk.silenceAfter)) || s.trunk.silenceDown) := rfl
  have hsame : ({ s.trunk with answering := false } : Trunk).silenceDown = s.trunk.silenceDown := rfl
  rw [hdown, hsame]
  cases s.trunk.testOver && decide (Config.lossFrames ≤ s.trunk.silenceAfter) <;> cases s.trunk.silenceDown
  · rfl
  · rfl
  · rfl
  · exact Arm.raiseCause_raiseCause _ _

end

/-! ## An arm, a window and a transfer after the interval's end -/

/-- The state after the start windows have counted an answer interval (R84). -/
def State.windowsEnded (s : State) : State := allLanes.foldl State.tickWindow s.trunkEnded

section
variable (s : State)

theorem State.windowsEnded_side : FieldSide s.trunkEnded s.windowsEnded := .foldl _ FieldSide.tickWindow allLanes _

theorem State.intervalEnd_windows (l : Fin 4) : s.intervalEnd.windows[l] = s.windows[l].ticked := by
  have hend : s.intervalEnd.windows = s.windowsEnded.windows := by
    unfold State.intervalEnd
    dsimp only
    rw [foldl_keeps State.windows (f := fun t a => (t.settleUnassigned a .wild).settleUnassigned a .ctrl)
        fun t a => ((OneArm.settleUnassigned t .wild).trans (.settleUnassigned _ .ctrl)).windows,
      foldl_keeps State.windows fun t a => (t.serviceTick_keeps a).2.1]
    rfl
  obtain ⟨before, hheld, hown⟩ := foldl_own (fun t (m : Fin 4) => t.windows[m]) (f := State.tickWindow)
    (fun t m n h => by rw [State.tickWindow_windows, if_neg (Ne.symm h)]) allLanes_nodup s.trunkEnded (mem_allLanes l)
  have hsame : s.trunkEnded.windows = s.windows := by rw [State.trunkEnded_eq]
  rw [hend]
  refine hown.trans ?_
  rw [State.tickWindow_windows, if_pos rfl]
  exact congrArg StartWindow.ticked (hheld.trans (by rw [hsame]))

/-- A transfer after an answer interval's end (R165, R166). -/
def Transfer.ticked (t : Transfer) : Transfer :=
  if t.timesOut then Transfer.released else if t.phase = .reply then { t with age := t.age + 1 } else t

theorem State.serviceTick_transfers (a b : Fin 8) :
    (s.serviceTick a).transfers[b] = if a = b then s.transfers[b].ticked else s.transfers[b] := by
  have hset : ∀ u : Transfer, u = s.transfers[a].ticked →
      (s.transfers.set a u)[b] = if a = b then s.transfers[b].ticked else s.transfers[b] := by
    rintro _ rfl
    by_cases hab : a = b
    · subst hab
      rw [if_pos rfl, get_set_self]
    · rw [if_neg hab, get_set_ne _ _ _ _ hab]
  unfold State.serviceTick
  dsimp only
  by_cases hout : s.transfers[a].timesOut = true
  · rw [if_pos hout]
    have hreleased := hset _ (if_pos hout).symm
    obtain ⟨-, h⟩ | ⟨-, h⟩ := s.abandonTransfer_cases a .serviceTimeout <;> rw [h] <;> exact hreleased
  · rw [if_neg hout]
    by_cases hreply : s.transfers[a].phase = .reply
    · rw [if_pos hreply]
      exact hset _ ((if_neg hout).trans (if_pos hreply)).symm
    · rw [if_neg hreply]
      have hsame : s.transfers[a].ticked = s.transfers[a] := (if_neg hout).trans (if_neg hreply)
      by_cases hab : a = b
      · subst hab
        rw [if_pos rfl, hsame]
      · rw [if_neg hab]

theorem State.intervalEnd_transfers (a : Fin 8) : s.intervalEnd.transfers[a] = s.transfers[a].ticked := by
  have hend : s.intervalEnd.transfers = (allArms.foldl State.serviceTick s.windowsEnded).transfers := by
    unfold State.intervalEnd
    dsimp only
    rw [(FieldSide.foldl (fun t b => (t.settleUnassigned b .wild).settleUnassigned b .ctrl)
      (fun t b => (FieldSide.settleUnassigned t b _).trans (.settleUnassigned _ b _)) allArms _).transfers]
    rfl
  obtain ⟨before, hheld, hown⟩ := foldl_own (fun t (b : Fin 8) => t.transfers[b]) (f := State.serviceTick)
    (fun t b c h => by rw [State.serviceTick_transfers, if_neg (Ne.symm h)]) allArms_nodup s.windowsEnded (mem_allArms a)
  have hsame : s.windowsEnded.transfers = s.transfers := by
    rw [s.windowsEnded_side.transfers, State.trunkEnded_eq]
  rw [hend]
  refine hown.trans ?_
  rw [State.serviceTick_transfers, if_pos rfl]
  exact congrArg Transfer.ticked (hheld.trans (by rw [hsame]))

/-- A transfer that does not time out leaves its arm (R166). -/
theorem State.serviceTick_arm {a : Fin 8} (h : s.transfers[a].timesOut = false) : (s.serviceTick a).arm a = s.arm a := by
  unfold State.serviceTick
  dsimp only
  rw [if_neg (by rw [h]; nofun)]
  split_ifs <;> rfl

/-- Both meters of an arm have a slot in the frame (R42). -/
def State.MetersAssigned (a : Fin 8) : Prop :=
  ∀ p, ∃ j, Assigned s.trunk.slotCount s.trunk.table j a (StreamPos.meterRole p)

theorem State.settleUnassigned_of_assigned {a : Fin 8} (h : s.MetersAssigned a) (p : StreamPos) :
    s.settleUnassigned a p = s := by
  obtain ⟨j, hj⟩ := h p
  refine if_neg fun hnone => ?_
  have hnil := beq_iff_eq.1 hnone
  exact List.not_mem_nil (hnil ▸ Machine.mem_slotsOf.2 hj)

/-- An arm whose meters have slots and whose transfer does not time out takes of an interval's end what the trunk and the
start windows give it (R21, R84, R95). -/
theorem State.intervalEnd_arm {a : Fin 8} (hmeters : s.MetersAssigned a) (htransfer : s.transfers[a].timesOut = false) :
    s.intervalEnd.arm a = s.windowsEnded.arm a := by
  have hsettle : ∀ t b c, c ≠ b → ((State.settleUnassigned t b .wild).settleUnassigned b .ctrl).arm c = t.arm c :=
    fun t b c h => ((OneArm.settleUnassigned t .wild).trans (.settleUnassigned _ .ctrl)).arms c h
  have hside := fun (l : List (Fin 8)) (t : State) => FieldSide.foldl
    (fun t b => (State.settleUnassigned t b .wild).settleUnassigned b .ctrl)
    (fun t b => (FieldSide.settleUnassigned t b _).trans (.settleUnassigned _ b _)) l t
  obtain ⟨before, hheld, hown⟩ := foldl_arm_at hsettle allArms_nodup (allArms.foldl State.serviceTick s.windowsEnded)
    (mem_allArms a)
  obtain ⟨before', hheld', hown'⟩ := foldl_own (fun t (b : Fin 8) => (t.arm b, t.transfers[b])) (f := State.serviceTick)
    (fun t b c h => by rw [(t.serviceTick_keeps b).2.2.2 c h, State.serviceTick_transfers, if_neg (Ne.symm h)])
    allArms_nodup s.windowsEnded (mem_allArms a)
  have hquiet : (before'.foldl State.serviceTick s.windowsEnded).transfers[a].timesOut = false := by
    rw [(Prod.mk.inj hheld').2, s.windowsEnded_side.transfers, State.trunkEnded_eq]
    exact htransfer
  refine (show s.intervalEnd.arm a = _ from hown).trans ?_
  have hassigned : (before.foldl (fun t b => (State.settleUnassigned t b .wild).settleUnassigned b .ctrl)
      (allArms.foldl State.serviceTick s.windowsEnded)).MetersAssigned a := by
    have htrunk : (before.foldl (fun t b => (State.settleUnassigned t b .wild).settleUnassigned b .ctrl)
        (allArms.foldl State.serviceTick s.windowsEnded)).trunk = s.trunkEnded.trunk := by
      rw [(hside before _).trunk, foldl_keeps State.trunk fun t b => (t.serviceTick_keeps b).1, s.windowsEnded_side.trunk]
    unfold State.MetersAssigned
    rw [htrunk, State.trunkEnded_eq, Trunk.ended_eq]
    exact hmeters
  rw [State.settleUnassigned_of_assigned _ hassigned, State.settleUnassigned_of_assigned _ hassigned, hheld,
    (Prod.mk.inj hown').1, State.serviceTick_arm _ hquiet, (Prod.mk.inj hheld').1]

end

theorem State.windowsEnded_arm (s : State) (a : Fin 8) : s.windowsEnded.arm a =
    if ∃ l ∈ allLanes, s.trunkEnded.windows[l].expiresNext = true ∧ a ∈ s.trunkEnded.windows[l].pending
    then s.trunkEnded.expires a (s.trunkEnded.arm a) else s.trunkEnded.arm a :=
  State.foldl_tickWindow_arm allLanes_nodup _ a

/-- The close of a frame's last window, where the slot is unassigned, ends the answer interval (R21). -/
theorem exec_answerWindowClose_unassigned_last {s : State} {i : Fin 64} (hpow : s.powered = true)
    (hans : s.trunk.answering = true) (hnext : s.trunk.nextWindow = i.val) (hcount : s.trunk.slotCount = i.val + 1)
    (hrole : s.trunk.table[i].role = .unused) (w : List Byte) :
    exec (.answerWindowClose w) s =
      .next (s.modTrunk (fun t => { t with nextWindow := t.nextWindow + 1 })).intervalEnd := by
  have hlt : s.trunk.nextWindow < 64 := hnext ▸ i.isLt
  have hi : (⟨s.trunk.nextWindow, hlt⟩ : Fin 64) = i := Fin.ext hnext
  have hslot : s.frameAssignment i = none := if_neg fun h => h.2 hrole
  have hclose : s.closeWindow w = (s.modTrunk (fun t => { t with nextWindow := t.nextWindow + 1 })).intervalEnd := by
    rw [State.closeWindow, if_pos hans, dif_pos hlt, hi, if_pos (by omega), State.closeSlot, hslot]
  exact congrArg Host.Outcome.next ((if_pos hpow).trans hclose)

/-! ## TRUNK_DOWN, TEST_END and the end of an answer interval -/

theorem Trunk.testOver_iff (t : Trunk) : t.testOver = true ↔ t.test.state = .running ∧ t.test.remaining = 0 := by
  simp [Trunk.testOver]

theorem Transfer.timesOut_eq_false {t : Transfer} (h : t.phase ≠ .reply ∨ t.age + 1 < 100) : t.timesOut = false := by
  unfold Transfer.timesOut
  obtain h | h := h
  · rw [beq_false_of_ne h, Bool.false_and]
  · rw [decide_eq_false (by simp only [Config.answerFrames]; omega), Bool.and_false]

theorem Transfer.ticked_of_rest {t : Transfer} (h : t.phase ≠ .reply) : t.ticked = t := by
  rw [Transfer.ticked, Transfer.timesOut_eq_false (.inl h)]
  exact if_neg h

theorem Transfer.ticked_of_waiting {t : Transfer} (h : t.phase = .reply) (hage : t.age + 1 < 100) :
    t.ticked = { t with age := t.age + 1 } := by
  rw [Transfer.ticked, Transfer.timesOut_eq_false (.inr hage)]
  exact if_pos h

theorem Transfer.ticked_of_out {t : Transfer} (h : t.phase = .reply) (hage : 100 ≤ t.age + 1) :
    t.ticked = Transfer.released := by
  refine if_pos ?_
  rw [Transfer.timesOut, h, decide_eq_true (show Config.answerFrames ≤ t.age + 1 from hage)]
  rfl

theorem StartWindow.ticked_eq (w : StartWindow) : w.ticked =
    if w.isOpen = false then w
    else if w.remaining ≤ 1 then { isOpen := false, remaining := 0, pending := [] }
    else { w with remaining := w.remaining - 1 } := by
  unfold StartWindow.ticked StartWindow.expiresNext
  cases hopen : w.isOpen
  · rfl
  · by_cases hlast : w.remaining ≤ 1
    · rw [decide_eq_true hlast, if_pos hlast]
      rfl
    · rw [decide_eq_false hlast, if_neg hlast]
      rfl

/-- Settles O33: both events by `State.trunkDownEvent_eq`, the interval's end part by part. -/
theorem trunkDownAndTestEnd : Obligations.TrunkDownAndTestEnd := by
  refine ⟨fun s hpow => ⟨fun hup hsilence => ?_, fun hrun hrem hans => ?_, fun hans => ?_⟩,
    fun s i hpow hans hnext hcount hrole => ?_⟩
  · have hexec : exec .trunkDown s =
        .next (s.modTrunk (fun k => { k with silence := Config.lossFrames })).trunkDownEvent :=
      congrArg Host.Outcome.next ((if_pos hpow).trans (if_pos ⟨hup, hsilence⟩))
    have htakes := fun a => (s.arm a).takes_raiseCause .trunkLost
    have harm := fun a => (s.modTrunk (fun k => { k with silence := Config.lossFrames })).trunkDownEvent_arm a
    refine ⟨_, hexec, State.trunkDownEvent_eq _, fun a h => ?_, fun a h hreason hsecondary => ?_, fun a h h' => ?_⟩
    · rw [harm]
      exact (htakes a).1 h
    · rw [harm]
      exact ((htakes a).2.1 h).trans (if_neg (not_or.2 ⟨hreason, hsecondary⟩))
    · rw [harm]
      exact (htakes a).2.2 h h'
  · have hover := s.trunk.testOver_iff.2 ⟨hrun, hrem⟩
    have hexec : exec .testEnd s = .next s.endTest :=
      congrArg Host.Outcome.next ((if_pos hpow).trans (if_pos (by rw [hover, hans]; rfl)))
    refine ⟨_, hexec, fun h => if_pos h, fun h => ?_⟩
    have hend : s.endTest = (s.modTrunk (fun t => { t with test := { t.test with state := .complete } })).trunkDownEvent :=
      if_neg (Nat.not_lt.2 h)
    rw [hend]
    refine ⟨State.trunkDownEvent_eq _, fun a hflow hclosing => ?_⟩
    rw [State.trunkDownEvent_arm]
    exact ((s.arm a).takes_raiseCause .trunkLost).2.2 hflow hclosing
  · exact congrArg Host.Outcome.next ((if_pos hpow).trans (if_neg (by rw [hans]; simp)))
  · intro n ended gone
    have hn : s.trunk.silenceAfter = n := by
      unfold Trunk.silenceAfter
      rw [satSucc_eq_min]
      rfl
    have hended : ended ↔ s.trunk.testOver = true := s.trunk.testOver_iff.symm
    have hgone : gone ↔ s.trunk.goesDown = true := by
      unfold Trunk.goesDown
      rw [hn, Bool.or_eq_true, Bool.and_eq_true, Bool.and_eq_true, Bool.and_eq_true, ← hended]
      simp only [decide_eq_true_eq, Bool.not_eq_true', beq_iff_eq, gone, and_assoc]
      rfl
    refine ⟨_, exec_answerWindowClose_unassigned_last hpow hans hnext hcount hrole [], ?_⟩
    have htrunk := (s.modTrunk (fun t => { t with nextWindow := t.nextWindow + 1 })).intervalEnd_trunk
    have hwindows := (s.modTrunk (fun t => { t with nextWindow := t.nextWindow + 1 })).intervalEnd_windows
    have htransfers := (s.modTrunk (fun t => { t with nextWindow := t.nextWindow + 1 })).intervalEnd_transfers
    have harm := fun a => (s.modTrunk (fun t => { t with nextWindow := t.nextWindow + 1 })).intervalEnd_arm (a := a)
    have hwait := (s.modTrunk (fun t => { t with nextWindow := t.nextWindow + 1 })).windowsEnded_arm
    have hdown := (s.modTrunk (fun t => { t with nextWindow := t.nextWindow + 1 })).trunkEnded_arm
    generalize (s.modTrunk (fun t => { t with nextWindow := t.nextWindow + 1 })).intervalEnd = t at *
    generalize (s.modTrunk (fun t => { t with nextWindow := t.nextWindow + 1 })).trunkEnded = u at *
    refine ⟨?_, fun l => (hwindows l).trans (StartWindow.ticked_eq _), fun a => ⟨fun hphase => ?_, fun hphase hage => ?_,
      fun hphase hage => ?_⟩, fun a hmeters htransfer hpending => ?_⟩
    · have hstate : (if s.trunk.goesDown then TrunkState.down else if s.trunk.testOver then .up else s.trunk.state) =
          if gone then .down else if ended then .up else s.trunk.state := by simp only [hgone, hended]
      have hcrc : (if s.trunk.goesDown then 0 else s.trunk.crcErrors) = if gone then 0 else s.trunk.crcErrors := by
        simp only [hgone]
      have hstale : (if s.trunk.goesDown then 0 else s.trunk.staleErrors) = if gone then 0 else s.trunk.staleErrors := by
        simp only [hgone]
      have htest : (if s.trunk.testOver then TestState.complete else s.trunk.test.state) =
          if ended then .complete else s.trunk.test.state := by simp only [hended]
      have herrors : (if (s.trunk.testFrame && s.trunk.testFailed) = true then satSucc 65535 s.trunk.test.errors
          else s.trunk.test.errors) = if s.trunk.testFrame = true ∧ s.trunk.testFailed = true
            then (if s.trunk.test.errors < 65535 then s.trunk.test.errors + 1 else 65535) else s.trunk.test.errors := by
        simp only [Bool.and_eq_true, satSucc]
      rw [← hstate, ← hcrc, ← hstale, ← htest, ← herrors, ← hn, ← congrArg (· + 1) hnext, htrunk, Trunk.ended_eq]
      rfl
    · exact (htransfers a).trans (Transfer.ticked_of_rest hphase)
    · exact (htransfers a).trans (Transfer.ticked_of_waiting hphase hage)
    · exact congrArg Transfer.phase ((htransfers a).trans (Transfer.ticked_of_out hphase hage))
    · have hu : u.arm a = if s.trunk.goesDown then (s.arm a).raiseCause .trunkLost else s.arm a := hdown a
      have hrest : (u.arm a).state ≠ .startPending := by
        rw [hu]
        split_ifs
        · exact fun h => hpending ((Arm.SameBatch.raiseCause _ _).pending.1 h)
        · exact hpending
      rw [harm a hmeters (Transfer.timesOut_eq_false htransfer), hwait, State.expires_of_not_pending _ _ hrest, ite_self, hu]
      refine ⟨fun h => ?_, fun h => if_neg (mt hgone.2 h)⟩
      rw [if_pos (hgone.1 h)]
      exact Arm.takes_raiseCause _ _

/-! ## START_WINDOW_EXPIRY -/

theorem State.silenceStep_of_heard {s : State} (h : s.trunk.validTaken = true) : s.silenceStep = s := if_pos h

theorem State.testStep_of_not_over {s : State} (h : s.trunk.testOver = false) :
    s.testStep = s.modTrunk Trunk.testResult := by
  have hover : s.trunk.testResult.testOver = s.trunk.testOver := by rw [Trunk.testResult_eq]; rfl
  unfold State.testStep
  dsimp only
  rw [State.modTrunk_trunk, hover, h]
  rfl

/-- A pending arm at the expiry of its window (R84). -/
theorem State.expires_pending {s : State} {a : Fin 8} {x : Arm} {c : Context} (hstate : x.state = .startPending)
    (hctx : x.ctx = some c) :
    (s.MayStart a c → x.StartedAs (s.expires a x) c s.trunk.frameCounter) ∧
    (¬ s.MayStart a c → s.expires a x = { x with state := .authorized, sense := s.startCode a }) := by
  refine ⟨fun hmay => ?_, fun hmay => ?_⟩
  · have hstarts : s.expires a x = x.enterRunning s.trunk.frameCounter := by
      rw [State.expires, if_pos hstate, hctx]
      dsimp only
      rw [State.startRefusal_of_mayStart hmay]
    rw [hstarts]
    exact Arm.enterRunning_startedAs hctx _
  · have hreturns : s.expires a x = x.returned (s.startCode a) := by
      rw [State.expires, if_pos hstate, hctx]
      dsimp only
      rw [State.startRefusal_of_not_mayStart hmay]
    exact hreturns

/-- Settles O43: the expiry alone by `State.expireWindow_eq`, at the interval's end by `State.windowsEnded_arm`. -/
theorem windowExpiryStartsOrReturns : Obligations.WindowExpiryStartsOrReturns := by
  refine ⟨fun s l hpow hopen hlast => ?_, fun s i hpow hans hnext hcount hrole hvalid htest => ?_⟩
  · have hexec : exec (.startWindowExpiry l) s = .next (s.expireWindow l) :=
      congrArg Host.Outcome.next ((if_pos hpow).trans
        (if_pos (by rw [StartWindow.expiresNext, hopen, decide_eq_true hlast]; rfl)))
    have harm := fun a => s.expireWindow_arm l a
    refine ⟨_, hexec, s.expireWindow_eq l, fun a ha => (harm a).trans (if_neg ha), fun a c ha hstate hctx => ?_⟩
    rw [harm a, if_pos ha]
    exact State.expires_pending hstate hctx
  · refine ⟨_, exec_answerWindowClose_unassigned_last hpow hans hnext hcount hrole [], ?_⟩
    intro l a c hopen hlast hmem hstate hctx hmeters htransfer
    have hexpires : s.windows[l].expiresNext = true := by
      rw [StartWindow.expiresNext, hopen, decide_eq_true hlast]
      rfl
    have hover : s.trunk.testOver = false := Bool.eq_false_iff.2 fun h => htest (s.trunk.testOver_iff.1 h).1
    have hstill : (s.modTrunk (fun t => { t with nextWindow := t.nextWindow + 1 })).trunkEnded =
        s.modTrunk (fun t => ({ t with nextWindow := t.nextWindow + 1, answering := false } : Trunk).testResult) := by
      rw [State.trunkEnded, State.silenceStep_of_heard (by exact hvalid), State.testStep_of_not_over (by exact hover)]
      rfl
    refine ⟨((State.intervalEnd_windows _ l).trans (StartWindow.ticked_eq _)).trans ?_, ?_⟩
    · exact (if_neg (by rw [State.modTrunk_windows, hopen]; nofun)).trans (if_pos hlast)
    · have hend := (s.modTrunk (fun t => { t with nextWindow := t.nextWindow + 1 })).intervalEnd_arm (a := a) hmeters
        (Transfer.timesOut_eq_false htransfer)
      have hsame : ∀ x, (s.modTrunk (fun t =>
          ({ t with nextWindow := t.nextWindow + 1, answering := false } : Trunk).testResult)).expires a x =
          s.expires a x := fun x => by
        have hkeep := Trunk.testResult_eq { s.trunk with nextWindow := s.trunk.nextWindow + 1, answering := false }
        refine State.expires_congr ?_ ?_ ?_ ?_ ?_ ?_ a x
        iterate 3 rfl
        · exact (congrArg Trunk.state hkeep :)
        · exact (congrArg Trunk.slots hkeep :)
        · exact (congrArg Trunk.frameCounter hkeep :)
      have hcross : ∃ m ∈ allLanes, s.windows[m].expiresNext = true ∧ a ∈ s.windows[m].pending :=
        ⟨l, mem_allLanes l, hexpires, hmem⟩
      rw [hend, State.windowsEnded_arm, hstill, if_pos (by exact hcross), hsame]
      exact State.expires_pending hstate hctx

end Sys2Proof.Machine
end

section
/-! PROOFS. The increment set of a sample at its arm, the settlement of a meter, and a meter's or a valve's word through its
window (R24, R42, R51, R78, R102). -/

namespace Sys2Proof.Machine

/-! ## A totalizer save asked for -/

/-- A totalizer save asked for waits or is under way, and nothing but the store changes (R143). -/
theorem State.requestSave_pending (s : State) (a : Fin 8) :
    (s.requestSave a).SavePending a ∧ s.requestSave a = { s with store := (s.requestSave a).store } := by
  unfold State.requestSave State.joinQueue State.SavePending
  split_ifs with hwaits
  · exact ⟨.inl (by simpa using hwaits), rfl⟩
  · split
    · exact ⟨.inr ⟨_, _, rfl⟩, rfl⟩
    · exact ⟨.inl (by simp), rfl⟩

theorem State.modArm_modArm (s : State) (a : Fin 8) (f g : Arm → Arm) :
    (s.modArm a f).modArm a g = s.modArm a (fun x => g (f x)) := by
  simp [State.modArm, State.setArm, State.arm]

theorem State.modArm_id (s : State) (a : Fin 8) : s.modArm a id = s := by
  unfold State.modArm State.setArm State.arm
  rw [id_eq, Fin.getElem_fin, Vector.set_getElem_self]

/-- One arm changed and a save asked for: nothing but the arms and the store changes (R143). -/
theorem State.modArm_requestSave (s : State) (a : Fin 8) (f : Arm → Arm) :
    let t := (s.modArm a f).requestSave a
    t.arm a = f (s.arm a) ∧ t = { s with arms := t.arms, store := t.store } ∧ t.SavePending a := by
  intro t
  obtain ⟨hpending, hkeeps⟩ := (s.modArm a f).requestSave_pending a
  have harms : t.arms = (s.modArm a f).arms := State.requestSave_arms _ a
  refine ⟨?_, hkeeps.trans (by rw [harms]; rfl), hpending⟩
  exact (congrArg (fun v : Vector Arm 8 => v[a]) harms).trans (s.arm_modArm_self a f)

/-! ## The increment set -/

theorem ArmState.isOpen_eq_false_iff {st : ArmState} : st.isOpen = false ↔ st = .idle ∨ st = .faulted := by
  cases st <;> decide

/-- The state after an increment set has been handed to an arm: the arm as R78 and R102 route it, and a save asked for when
an IDLE arm goes FAULTED (R143). -/
structure State.Routed (s : State) (a : Fin 8) (p : StreamPos) (v : Increment) (t : State) : Prop where
  routes : s.Routes a p v (t.arm a)
  keeps : t = { s with arms := t.arms, store := t.store }
  saves : (s.arm a).state = .idle → (t.arm a).state = .faulted → t.SavePending a
  store : (s.arm a).state ≠ .idle ∨ (t.arm a).state ≠ .faulted → t.store = s.store

/-- An increment set of an arm without a batch goes into the accumulator; at the threshold the arm is FAULTED, and an IDLE
one has a save asked for (R78, R102, R143). -/
theorem State.accrueUnauthorized_routed {s : State} {a : Fin 8} (h : (s.arm a).isOpen = false) (p : StreamPos)
    (v : Increment) : s.Routed a p v (s.accrueUnauthorized a v.iv) := by
  have hroutes : ∀ y, (if s.config.unauthorizedL * 1000 ≤ ((s.arm a).accrue v.iv).unauthorized
      then y = { (s.arm a).accrue v.iv with state := .faulted, sense := .unauthorizedFlow }
      else y = (s.arm a).accrue v.iv) → s.Routes a p v y := by
    intro y hy
    unfold State.Routes
    dsimp only
    rw [if_neg (by simp [h])]
    by_cases hover : s.config.unauthorizedL * 1000 ≤ ((s.arm a).accrue v.iv).unauthorized
    · rw [if_pos hover] at hy
      exact hy.trans (if_pos hover).symm
    · rw [if_neg hover] at hy
      exact hy.trans (if_neg hover).symm
  unfold State.accrueUnauthorized
  dsimp only
  rw [State.arm_modArm_self]
  by_cases hover : s.config.unauthorizedL * 1000 ≤ ((s.arm a).accrue v.iv).unauthorized
  · rw [if_pos hover]
    simp only [if_pos hover] at hroutes
    rcases ArmState.isOpen_eq_false_iff.1 h with hidle | hfaulted
    · rw [hidle]
      dsimp only
      rw [State.modArm_modArm]
      obtain ⟨harm, hkeeps, hpending⟩ := s.modArm_requestSave a
        (fun x => { x.accrue v.iv with state := .faulted, sense := .unauthorizedFlow })
      exact ⟨hroutes _ harm, hkeeps, fun _ _ => hpending,
        fun hno => absurd (congrArg Arm.state harm) (hno.resolve_left (fun hne => hne hidle))⟩
    · rw [hfaulted]
      dsimp only
      refine ⟨hroutes _ ?_, rfl, fun hidle => ?_, fun _ => rfl⟩
      · rw [State.modArm_modArm, State.arm_modArm_self]
        exact congrArg (fun st => ({ (s.arm a).accrue v.iv with state := st, sense := .unauthorizedFlow } : Arm)) hfaulted
      · rw [hfaulted] at hidle
        cases hidle
  · rw [if_neg hover]
    simp only [if_neg hover] at hroutes
    refine ⟨hroutes _ (s.arm_modArm_self a _), rfl, fun hidle hfaulted => ?_, fun _ => rfl⟩
    rw [State.arm_modArm_self, show ((s.arm a).accrue v.iv).state = (s.arm a).state from rfl, hidle] at hfaulted
    cases hfaulted

/-- The increment set of a sample reaches its arm as R78 routes it. -/
theorem State.routeIncrement_routed (s : State) (a : Fin 8) (p : StreamPos) (v : Increment) :
    s.Routed a p v (s.routeIncrement a p v) := by
  unfold State.routeIncrement
  by_cases hopen : (s.arm a).isOpen = true
  · rw [if_pos hopen]
    have harm := s.arm_modArm_self a (fun x => x.setAccount p ((x.account p).add v))
    refine ⟨harm.trans ?_, rfl, fun hidle => ?_, fun _ => rfl⟩
    · rw [if_pos hopen]
      cases p <;> rfl
    · rw [Arm.isOpen, hidle] at hopen
      cases hopen
  · rw [if_neg hopen]
    exact State.accrueUnauthorized_routed (Bool.eq_false_iff.2 hopen) p v

/-! ## A processed sample -/

/-- The causes that a processed sample raises (R45, R54). -/
def State.sampleCauses (s : State) (a : Fin 8) (p : StreamPos) (w : MeterWord) : List EndCause :=
  (if !s.isSeed a p && s.implausible a p w then [.pulseImplausible] else []) ++
  (if w.status = .fail then [.deviceFault] else [])

/-- End causes reach the arm one after the other. -/
theorem Arm.takesAll_foldl (causes : List EndCause) (x : Arm) : x.TakesAll (causes.foldl Arm.raiseCause x) causes := by
  induction causes generalizing x with
  | nil => rfl
  | cons c causes ih => exact ⟨_, x.takes_raiseCause c, ih _⟩

/-- A processed sample: the meter, the increment set at its arm, then the causes (R42, R54, R55). -/
theorem State.processSample_eq (s : State) (a : Fin 8) (p : StreamPos) (w : MeterWord) :
    s.processSample a p w = ((s.setMeter a p (s.processMeter a p w).1).routeIncrement a p (s.processMeter a p w).2).modArm a
      (fun x => (s.sampleCauses a p w).foldl Arm.raiseCause x) := by
  unfold State.processSample State.sampleCauses
  dsimp only
  generalize (s.setMeter a p (s.processMeter a p w).1).routeIncrement a p (s.processMeter a p w).2 = u
  have hid : u.modArm a (fun x => x) = u := u.modArm_id a
  split_ifs <;> simp [hid, State.modArm_modArm]

theorem State.savePending_congr {s t : State} (h : t.store = s.store) {a : Fin 8} : t.SavePending a ↔ s.SavePending a := by
  unfold State.SavePending
  rw [h]

/-- A processed sample has led from a state to the next: the arm with the increment set routed to it is `y` (R42 to R56,
R78, R102). -/
structure State.Processed (s : State) (a : Fin 8) (p : StreamPos) (w : MeterWord) (y : Arm) (t : State) : Prop where
  meter : t.meter a p = (s.processMeter a p w).1
  meters : ∀ b q, ¬ (b = a ∧ q = p) → t.meter b q = s.meter b q
  routes : s.Routes a p (s.processMeter a p w).2 y
  arm : t.arm a = (s.sampleCauses a p w).foldl Arm.raiseCause y
  arms : ∀ b, b ≠ a → t.arm b = s.arm b
  keeps : t = { s with meters := t.meters, arms := t.arms, trunk := t.trunk, transfers := t.transfers, rack := t.rack,
                       store := t.store }
  saves : (s.arm a).state = .idle → y.state = .faulted → t.SavePending a
  store : (s.arm a).state ≠ .idle ∨ y.state ≠ .faulted → t.store = s.store

theorem State.processSample_processed (s : State) (a : Fin 8) (p : StreamPos) (w : MeterWord) :
    ∃ y, s.Processed a p w y (s.processSample a p w) := by
  have htrunk := (FieldSide.processSample s a p w).trunk
  have hrouted := (s.setMeter a p (s.processMeter a p w).1).routeIncrement_routed a p (s.processMeter a p w).2
  have harms := (OneArm.processSample (a := a) s p w).arms
  rw [State.processSample_eq] at harms htrunk ⊢
  generalize (s.setMeter a p (s.processMeter a p w).1).routeIncrement a p (s.processMeter a p w).2 = u at hrouted harms ⊢
  obtain ⟨hroutes, hkeeps, hsaves, hstore⟩ := hrouted
  have harm : (s.setMeter a p (s.processMeter a p w).1).arm a = s.arm a := s.setMeter_arm a p _ a
  have hmeters : u.meters = (s.setMeter a p (s.processMeter a p w).1).meters := by rw [hkeeps]
  have hmeter : ∀ b q, u.meter b q = (s.setMeter a p (s.processMeter a p w).1).meter b q := fun b q => by
    cases q <;> simp only [State.meter, hmeters]
  refine ⟨u.arm a, ?_, fun b q hne => ?_, ?_, u.arm_modArm_self a _, harms, ?_, fun hidle => ?_, fun hno => ?_⟩
  · rw [State.modArm_meter, hmeter, State.meter_setMeter_self]
  · rw [State.modArm_meter, hmeter, State.meter_setMeter_ne _ _ fun h => hne ⟨h.1.symm, h.2.symm⟩]
  · unfold State.Routes at hroutes ⊢
    rw [harm] at hroutes
    cases p <;> exact hroutes
  · rw [hkeeps]
    cases p <;> rfl
  · exact hsaves (by rw [harm]; exact hidle)
  · exact (hstore (by rw [harm]; exact hno)).trans (s.setMeter_store a p _)

/-- The content of a processed sample and its causes do not depend on the trunk but for the frame counter. -/
theorem State.processMeter_modTrunk {s : State} {g : Trunk → Trunk} (h : (g s.trunk).frameCounter = s.trunk.frameCounter)
    (a : Fin 8) (p : StreamPos) (w : MeterWord) : (s.modTrunk g).processMeter a p w = s.processMeter a p w := by
  unfold State.processMeter State.implausible
  simp only [State.modTrunk_meter, State.modTrunk_trunk, h]
  rfl

theorem State.sampleCauses_modTrunk {s : State} {g : Trunk → Trunk} (h : (g s.trunk).frameCounter = s.trunk.frameCounter)
    (a : Fin 8) (p : StreamPos) (w : MeterWord) : (s.modTrunk g).sampleCauses a p w = s.sampleCauses a p w := by
  unfold State.sampleCauses State.implausible
  simp only [State.modTrunk_meter, State.modTrunk_trunk, h]
  rfl

/-! ## The settlement of a meter -/

theorem StreamPos.meterPos_meterRole (p : StreamPos) : (StreamPos.meterRole p).meterPos = some p := by cases p <;> rfl

theorem StreamPos.meterRole_ne_unused (p : StreamPos) : StreamPos.meterRole p ≠ .unused := by cases p <;> decide

theorem State.laterSlot_iff {s : State} {i : Fin 64} {a : Fin 8} {r : Role} :
    s.laterSlot i a r = true ↔ ∃ j : Fin 64, i < j ∧ Assigned s.trunk.slotCount s.trunk.table j a r := by
  unfold State.laterSlot
  rw [List.any_eq_true]
  refine exists_congr fun j => ?_
  rw [Bool.and_eq_true, decide_eq_true_iff, beq_iff_eq, State.frameAssignment, assignment_eq_some]
  exact and_iff_right (List.mem_finRange j)

/-- The close of a window settles a meter at the last of its slots (R42). -/
theorem State.settleAtClose_meter (s : State) (i : Fin 64) (a : Fin 8) (p : StreamPos) :
    s.settleAtClose i a (StreamPos.meterRole p) =
      if s.laterSlot i a (StreamPos.meterRole p) then s else s.settleMeter a p := by
  unfold State.settleAtClose
  rw [StreamPos.meterPos_meterRole]

/-- The state with a meter settled for the frame in progress (R42). -/
def State.meterSettled (s : State) (a : Fin 8) (p : StreamPos) : State :=
  s.modMeter a p (fun m => m.settled s.trunk.frameCounter s.timebase.periodMs)

theorem State.bothSettled_iff {s : State} {a : Fin 8} :
    s.bothSettled a = true ↔ ∀ q, (s.meter a q).settledFrame = s.trunk.frameCounter := by
  unfold State.bothSettled
  rw [Bool.and_eq_true, beq_iff_eq, beq_iff_eq]
  exact ⟨fun h q => by cases q <;> simp [h], fun h => ⟨h _, h _⟩⟩

@[simp] theorem Meter.settled_settledFrame (m : Meter) (n period : Nat) : (m.settled n period).settledFrame = n := by
  unfold Meter.settled
  split <;> rfl

/-- A settlement raises TEMP_LOST at the hold limit, and arm frame closed follows it when the other meter of the arm is
settled for the frame (R42, R51, R57). -/
theorem State.settleMeter_eq (s : State) (a : Fin 8) (p : StreamPos) :
    let cold := if s.config.tempHoldLimit ≤ ((s.meter a p).settled s.trunk.frameCounter s.timebase.periodMs).age
      then [EndCause.tempLost] else []
    let u := (s.meterSettled a p).modArm a (fun x => cold.foldl Arm.raiseCause x)
    ((∃ q, q ≠ p ∧ (s.meter a q).settledFrame ≠ s.trunk.frameCounter) → s.settleMeter a p = u) ∧
    ((∀ q, q ≠ p → (s.meter a q).settledFrame = s.trunk.frameCounter) → s.settleMeter a p = u.armFrameClosed a) := by
  intro cold u
  have hage : (s.meterSettled a p).meter a p = (s.meter a p).settled s.trunk.frameCounter s.timebase.periodMs :=
    s.meter_setMeter_self a p _
  have hsettle : s.settleMeter a p = if u.bothSettled a then u.armFrameClosed a else u := by
    have hu : u = if s.config.tempHoldLimit ≤ ((s.meterSettled a p).meter a p).age
        then (s.meterSettled a p).modArm a (fun x => x.raiseCause .tempLost) else s.meterSettled a p := by
      rw [hage]
      by_cases hcold : s.config.tempHoldLimit ≤ ((s.meter a p).settled s.trunk.frameCounter s.timebase.periodMs).age
      · rw [if_pos hcold]
        exact congrArg (fun l => (s.meterSettled a p).modArm a (fun x => List.foldl Arm.raiseCause x l)) (if_pos hcold)
      · rw [if_neg hcold]
        exact (congrArg (fun l => (s.meterSettled a p).modArm a (fun x => List.foldl Arm.raiseCause x l))
          (if_neg hcold)).trans (State.modArm_id _ a)
    rw [hu]
    rfl
  have htrunk : u.trunk.frameCounter = s.trunk.frameCounter := congrArg Trunk.frameCounter (s.setMeter_trunk a p _)
  have hboth : u.bothSettled a = true ↔ ∀ q, q ≠ p → (s.meter a q).settledFrame = s.trunk.frameCounter := by
    rw [State.bothSettled_iff, htrunk]
    refine ⟨fun h q hq => ?_, fun h q => ?_⟩
    · have := h q
      rwa [show u.meter a q = _ from State.modArm_meter _ a _ a q, State.meterSettled, State.modMeter,
        State.meter_setMeter_ne _ _ fun e => hq e.2.symm] at this
    · by_cases hq : q = p
      · rw [hq, show u.meter a p = _ from State.modArm_meter _ a _ a p, hage]
        exact Meter.settled_settledFrame _ _ _
      · rw [show u.meter a q = _ from State.modArm_meter _ a _ a q, State.meterSettled, State.modMeter,
          State.meter_setMeter_ne _ _ fun e => hq e.2.symm]
        exact h q hq
  refine ⟨fun ⟨q, hq, hne⟩ => ?_, fun h => ?_⟩
  · rw [hsettle, if_neg fun h => hne (hboth.1 h q hq)]
  · rw [hsettle, if_pos (hboth.2 h)]

/-! ## A meter's window -/

/-- A change within a frame: what the trunk side keeps, and the assignment of the frame in progress. -/
structure InFrame (s t : State) : Prop where
  side : TrunkSide s t
  frame : t.trunk.frameCounter = s.trunk.frameCounter
  slotCount : t.trunk.slotCount = s.trunk.slotCount
  table : t.trunk.table = s.trunk.table

theorem InFrame.laterSlot_iff {s t : State} (h : InFrame s t) {i : Fin 64} {a : Fin 8} {r : Role} :
    t.laterSlot i a r = true ↔ ∃ j : Fin 64, i < j ∧ Assigned s.trunk.slotCount s.trunk.table j a r := by
  rw [State.laterSlot_iff, h.slotCount, h.table]

theorem State.handOver_meter (s : State) (a : Fin 8) (p : StreamPos) (w : List Byte) :
    s.handOver a (StreamPos.meterRole p) w =
      s.meterSample a p { total := wordTotal w, temp := wordTemp w, status := wordMeterStatus w } := by
  cases p <;> rfl

/-- A meter's valid word, its first of the frame, outside an echo test (R24, R42). -/
theorem State.closeAssigned_meter {s : State} {i : Fin 64} {a : Fin 8} {p : StreamPos} {w : List Byte}
    (hgood : wordGood w) (hfresh : s.trunk.slots[i].toggle ≠ some (wordToggle w)) (htest : s.trunk.testFrame = false)
    (hfirst : (s.meter a p).sample = none) :
    s.closeAssigned i a (StreamPos.meterRole p) w =
      (((s.wordTaken i w).processSample a p
        { total := wordTotal w, temp := wordTemp w, status := wordMeterStatus w }).serviceWord a i (wordServiceByte w)
        (wordService w)).settleAtClose i a (StreamPos.meterRole p) := by
  have hfirst' : ((s.wordTaken i w).meter a p).sample = none :=
    (congrArg Meter.sample (s.modTrunk_meter (fun t => t.heard i w) a p)).trans hfirst
  rw [State.closeAssigned_valid hgood hfresh, if_neg (by simp [htest]), State.handOver_meter, State.meterSample,
    if_pos hfirst']

theorem State.Processed.of_modTrunk {s t : State} {g : Trunk → Trunk} {a : Fin 8} {p : StreamPos} {w : MeterWord} {y : Arm}
    (hframe : (g s.trunk).frameCounter = s.trunk.frameCounter) (h : (s.modTrunk g).Processed a p w y t) :
    s.Processed a p w y t := by
  obtain ⟨hmeter, hmeters, hroutes, harm, harms, hkeeps, hsaves, hstore⟩ := h
  rw [State.processMeter_modTrunk hframe] at hmeter hroutes
  rw [State.sampleCauses_modTrunk hframe] at harm
  exact ⟨hmeter, fun b q hne => (hmeters b q hne).trans (s.modTrunk_meter g b q), hroutes, harm, harms, hkeeps, hsaves, hstore⟩

theorem State.Processed.serviceWord {s t : State} {a : Fin 8} {p : StreamPos} {w : MeterWord} {y : Arm}
    (h : s.Processed a p w y t) (i : Fin 64) (b : Byte) (f : ServiceFlags) :
    s.Processed a p w y (t.serviceWord a i b f) := by
  rw [State.serviceWord_keeps]
  obtain ⟨hmeter, hmeters, hroutes, harm, harms, hkeeps, hsaves, hstore⟩ := h
  refine ⟨by cases p <;> exact hmeter, fun b q hne => ?_, hroutes, harm, harms, ?_, hsaves, hstore⟩
  · cases q <;> exact hmeters b _ hne
  · rw [hkeeps]

/-- The window of a meter closes with its first valid word of the frame, outside an echo test: the sample is processed, then
the meter may settle (R24, R42). -/
theorem exec_answerWindowClose_meter {s : State} {i : Fin 64} {a : Fin 8} {p : StreamPos} {w : List Byte}
    (hopen : s.WindowOpen i a (StreamPos.meterRole p)) (hnext : i.val + 1 < s.trunk.slotCount) (hgood : wordGood w)
    (hfresh : s.trunk.slots[i].toggle ≠ some (wordToggle w)) (htest : s.trunk.testFrame = false)
    (hfirst : (s.meter a p).sample = none) :
    ∃ u y, exec (.answerWindowClose w) s = .next (u.settleAtClose i a (StreamPos.meterRole p)) ∧ InFrame s u ∧
      s.Processed a p { total := wordTotal w, temp := wordTemp w, status := wordMeterStatus w } y u := by
  have hexec := exec_answerWindowClose_of_windowOpen hopen hnext w
  generalize hv : s.modTrunk (fun t => { t with nextWindow := t.nextWindow + 1 }) = v at hexec
  rw [State.closeAssigned_meter (by exact hgood) (by rw [← hv]; exact hfresh) (by rw [← hv]; exact htest)
    (by rw [← hv, State.modTrunk_meter]; exact hfirst)] at hexec
  have htaken : v.wordTaken i w =
      s.modTrunk (fun t => ({ t with nextWindow := t.nextWindow + 1 } : Trunk).heard i w) := by rw [← hv]; rfl
  rw [htaken] at hexec
  generalize ({ total := wordTotal w, temp := wordTemp w, status := wordMeterStatus w } : MeterWord) = word at hexec ⊢
  obtain ⟨y, hy⟩ :=
    (s.modTrunk (fun t => ({ t with nextWindow := t.nextWindow + 1 } : Trunk).heard i w)).processSample_processed
    a p word
  have hfield := FieldSide.processSample
    (s.modTrunk (fun t => ({ t with nextWindow := t.nextWindow + 1 } : Trunk).heard i w)) a p word
  generalize (s.modTrunk (fun t => ({ t with nextWindow := t.nextWindow + 1 } : Trunk).heard i w)).processSample a p word = u
    at hexec hy hfield
  have htrunk : (u.serviceWord a i (wordServiceByte w) (wordService w)).trunk =
      ({ s.trunk with nextWindow := s.trunk.nextWindow + 1 } : Trunk).heard i w := by
    rw [State.serviceWord_keeps]
    exact hfield.trunk
  refine ⟨_, y, hexec, ⟨((TrunkSide.modTrunk s _).trans hfield.trunkSide).trans (.serviceWord u a i _ _), ?_, ?_, ?_⟩,
    (hy.of_modTrunk rfl).serviceWord i _ _⟩
  all_goals
    rw [htrunk]
    rfl

/-- An invalid outcome that does not lose the slot changes the receive state alone (R26). -/
theorem State.slotInvalid_kept {s : State} {i : Fin 64} (h : s.trunk.slots[i].losesNext = false) (a : Fin 8) (r : Role) :
    ∃ x, s.slotInvalid i a r = s.setSlot i x := by
  unfold State.slotInvalid
  dsimp only
  rw [if_neg (by rw [h]; nofun)]
  split_ifs <;> exact ⟨_, rfl⟩

/-- The silent window of the last slot of a meter: the trunk has closed it, and the meter settles (R21, R26, R42). -/
theorem State.MeterSilent.exec {s : State} {i : Fin 64} {a : Fin 8} {p : StreamPos} (h : s.MeterSilent i a p) :
    ∃ g : Trunk → Trunk, exec (.answerWindowClose []) s = .next ((s.modTrunk g).settleMeter a p) ∧
      InFrame s (s.modTrunk g) := by
  obtain ⟨hopen, hnext, hkept, -, hlast⟩ := h
  have hexec := exec_answerWindowClose_of_windowOpen hopen hnext []
  have hsilent : ∀ last, classifyWord last [] = .silent := fun _ => rfl
  rw [State.closeAssigned_invalid (by rw [hsilent]; decide), hsilent] at hexec
  have hloses : s.trunk.slots[i].losesNext = false := by
    unfold SlotRx.losesNext
    rcases hkept with hup | hfew
    · rw [hup]
      rfl
    · exact Bool.and_eq_false_iff.2 (.inr (decide_eq_false (Nat.not_le.2 hfew)))
  obtain ⟨x, hx⟩ := State.slotInvalid_kept (s := (s.modTrunk (fun t => { t with nextWindow := t.nextWindow + 1 })).modTrunk
    (fun t => (t.countOutcome .silent).noteTest i .silent [])) hloses a (StreamPos.meterRole p)
  rw [hx, State.settleAtClose_meter] at hexec
  let g : Trunk → Trunk := fun t =>
    let u := (({ t with nextWindow := t.nextWindow + 1 } : Trunk).countOutcome .silent).noteTest i .silent []
    { u with slots := u.slots.set i x }
  have hframe : InFrame s (s.modTrunk g) := ⟨.modTrunk s g, rfl, rfl, rfl⟩
  refine ⟨g, hexec.trans (congrArg Host.Outcome.next (if_neg fun hlater => ?_)), hframe⟩
  obtain ⟨j, hj, hassigned⟩ := hframe.laterSlot_iff.1 hlater
  exact hlast j hj hassigned

/-! ## The statement -/

theorem Meter.settled_of_sample {m : Meter} {iv : Nat} (h : m.sample = some iv) (n period : Nat) :
    m.settled n period = { m with settledFrame := n } := by
  unfold Meter.settled
  rw [h]

theorem State.sampleCauses_eq {s : State} {a : Fin 8} {p : StreamPos} {w : MeterWord} :
    ∃ implausible fault, s.sampleCauses a p w = implausible ++ fault ∧
      (¬ s.Seeds a p → s.AboveLimit a p w.total → implausible = [.pulseImplausible]) ∧
      (s.Seeds a p ∨ ¬ s.AboveLimit a p w.total → implausible = []) ∧
      fault = if w.status = .fail then [.deviceFault] else [] := by
  refine ⟨_, _, rfl, fun hseed habove => if_pos ?_, fun hno => if_neg fun h => ?_, rfl⟩
  · rw [Bool.and_eq_true, Bool.not_eq_true', (State.above_iff hseed).2 habove, ← Bool.not_eq_true, State.seeds_iff]
    exact ⟨hseed, rfl⟩
  · rw [Bool.and_eq_true, Bool.not_eq_true', ← Bool.not_eq_true, State.seeds_iff] at h
    exact (hno.resolve_left h.1) ((State.above_iff h.1).1 h.2)

theorem wordMeterStatus_eq {w : List Byte} (h : byteAt w 5 ≤ 2) : wordMeterStatus w =
    if byteAt w 5 = 0 then .ok else if byteAt w 5 = 1 then .warn else .fail := by
  unfold wordMeterStatus
  have hcodes : byteAt w 5 = 0 ∨ byteAt w 5 = 1 ∨ byteAt w 5 = 2 := by omega
  rcases hcodes with h | h | h <;> rw [h] <;> rfl

theorem State.handOver_keeps {r : Role} (h : ∀ p, r ≠ StreamPos.meterRole p) (s : State) (a : Fin 8) (w : List Byte) :
    s.handOver a r w = { s with arms := (s.handOver a r w).arms } := by
  unfold State.handOver
  split
  · rfl
  · exact absurd rfl (h .wild)
  · exact absurd rfl (h .ctrl)
  · split <;> rfl
  · split <;> rfl
  · rfl

theorem State.handOver_valve {r : Role} (h : r = .wildValve ∨ r = .ctrlValve) (s : State) (a : Fin 8) (w : List Byte) :
    s.handOver a r w = if byteAt w 2 = 1 then s.modArm a (fun x => x.raiseCause .deviceFault) else s := by
  rcases h with rfl | rfl <;> simp [State.handOver, wordValveFault]

/-- The settlement of a meter whose other meter is still open changes the meter and raises TEMP_LOST at the limit (R51). -/
theorem State.Processed.settle {s u : State} {a : Fin 8} {p : StreamPos} {w : MeterWord} {y : Arm} (hu : s.Processed a p w y u)
    (hframe : InFrame s u) (hother : ∀ q, q ≠ p → (s.meter a q).settledFrame ≠ s.trunk.frameCounter) :
    let cold := if s.config.tempHoldLimit ≤ (s.processMeter a p w).1.age then [EndCause.tempLost] else []
    let t := u.settleMeter a p
    t.meter a p = { (s.processMeter a p w).1 with settledFrame := s.trunk.frameCounter } ∧
    (∀ b q, ¬ (b = a ∧ q = p) → t.meter b q = s.meter b q) ∧
    t.arm a = cold.foldl Arm.raiseCause ((s.sampleCauses a p w).foldl Arm.raiseCause y) ∧
    (∀ b, b ≠ a → t.arm b = s.arm b) ∧ t.store = u.store ∧
    t = { s with meters := t.meters, arms := t.arms, trunk := t.trunk, transfers := t.transfers, rack := t.rack,
                 store := t.store } := by
  intro cold t
  have hsample := (s.processMeter_samples a p w).1.2.2.2.1
  have hsettled : (u.meter a p).settled u.trunk.frameCounter u.timebase.periodMs =
      { (s.processMeter a p w).1 with settledFrame := s.trunk.frameCounter } := by
    rw [hu.meter, Meter.settled_of_sample hsample, hframe.frame]
  have hconfig : u.config = s.config := congrArg (fun t : Tables => t.config.work) hframe.side.tables
  have hq : ∃ q, q ≠ p ∧ (u.meter a q).settledFrame ≠ u.trunk.frameCounter := by
    have hany : ∀ q, q ≠ p → (u.meter a q).settledFrame ≠ u.trunk.frameCounter := fun q hq => by
      rw [hu.meters a q fun h => hq h.2, hframe.frame]
      exact hother q hq
    cases p
    · exact ⟨.ctrl, nofun, hany _ nofun⟩
    · exact ⟨.wild, nofun, hany _ nofun⟩
  have ht : t = (u.meterSettled a p).modArm a (fun x => cold.foldl Arm.raiseCause x) := by
    have := (u.settleMeter_eq a p).1 hq
    rw [hsettled, hconfig] at this
    exact this
  have hmeter : ∀ b q, t.meter b q = (u.meterSettled a p).meter b q := fun b q => by
    rw [ht, State.modArm_meter]
  refine ⟨?_, fun b q hne => ?_, ?_, fun b hb => ?_, ?_, ?_⟩
  · rw [hmeter, State.meterSettled, State.modMeter, State.meter_setMeter_self, hsettled]
  · rw [hmeter, State.meterSettled, State.modMeter, State.meter_setMeter_ne _ _ fun h => hne ⟨h.1.symm, h.2.symm⟩]
    exact hu.meters b q hne
  · rw [ht, State.arm_modArm_self, State.meterSettled, State.modMeter_arm, hu.arm]
  · rw [ht, State.arm_modArm_ne _ _ hb.symm, State.meterSettled, State.modMeter_arm]
    exact hu.arms b hb
  · rw [ht]
    exact u.modMeter_store a p _
  · rw [ht, hu.keeps]
    cases p <;> rfl

/-- Settles O55: the sample by `State.Processed`, its settlement by `State.Processed.settle`; a valve's word by `handOver`. -/
theorem meterWordProcessed : Obligations.MeterWordProcessed := by
  refine ⟨fun s i a p w hopen hnext hgood hfresh htest hfirst hcode => ?_,
    fun s i a r w hopen hrole hnext hgood hfresh => ?_⟩
  · intro later word hopen'
    obtain ⟨u, y, hexec, hframe, hu⟩ := exec_answerWindowClose_meter hopen hnext hgood hfresh htest hfirst
    rw [wordMeterStatus_eq hcode, show wordTotal w = numAt w 1 2 from rfl, show wordTemp w = signed16 (numAt w 3 2) from rfl]
      at hu
    change s.Processed a p word y u at hu
    obtain ⟨implausible, fault, hcauses, himplausible, hplausible, hfault⟩ := State.sampleCauses_eq (s := s) (a := a) (p := p)
      (w := word)
    have hfault' : fault = if byteAt w 5 = 2 then [.deviceFault] else [] := by
      rw [hfault]
      have : word.status = .fail ↔ byteAt w 5 = 2 := by
        show (if byteAt w 5 = 0 then MeterStatus.ok else if byteAt w 5 = 1 then .warn else .fail) = .fail ↔ _
        split_ifs <;> simp <;> omega
      simp only [this]
    have hlater : u.laterSlot i a (StreamPos.meterRole p) = true ↔ later := by
      rw [hframe.laterSlot_iff]
      exact exists_congr fun j => and_congr_right fun _ =>
        ⟨fun ⟨hj, _, he⟩ => ⟨hj, he⟩, fun ⟨hj, he⟩ => ⟨hj, StreamPos.meterRole_ne_unused p, he⟩⟩
    rw [State.settleAtClose_meter] at hexec
    by_cases h : later
    · rw [if_pos (hlater.2 h)] at hexec
      refine ⟨u, _, _, y, implausible, fault, [], hexec, s.processMeter_samples a p word, hu.routes, fun _ => ⟨hu.meter, rfl⟩,
        fun hno => absurd h hno, himplausible, hplausible, hfault', ?_, hu.meters, hu.arms, hu.saves, hu.store, hu.keeps⟩
      rw [List.append_nil, ← hcauses, hu.arm]
      exact Arm.takesAll_foldl _ y
    · rw [if_neg (mt hlater.1 h)] at hexec
      obtain ⟨hmeter, hmeters, harm, harms, hstore, hkeeps⟩ := hu.settle hframe (hopen'.resolve_left h)
      refine ⟨_, _, _, y, implausible, fault, _, hexec, s.processMeter_samples a p word, hu.routes, fun h' => absurd h' h,
        fun _ => ⟨hmeter, rfl⟩, himplausible, hplausible, hfault', ?_, hmeters, harms, fun hidle hfaulted => ?_,
        fun hno => hstore.trans (hu.store hno), hkeeps⟩
      · rw [← hcauses, harm, ← List.foldl_append]
        exact Arm.takesAll_foldl _ y
      · exact (State.savePending_congr hstore).2 (hu.saves hidle hfaulted)
  · have hkept : ∀ u : State, u.settleAtClose i a r = u := fun u => by
      unfold State.settleAtClose
      cases r
      case wildMeter => exact absurd rfl (hrole .wild)
      case ctrlMeter => exact absurd rfl (hrole .ctrl)
      all_goals rfl
    have hexec := exec_answerWindowClose_of_windowOpen hopen hnext w
    generalize hv : s.modTrunk (fun t => { t with nextWindow := t.nextWindow + 1 }) = v at hexec
    have htest : v.trunk.testFrame = s.trunk.testFrame := by rw [← hv]; rfl
    rw [State.closeAssigned_valid hgood (by rw [← hv]; exact hfresh), hkept, State.serviceWord_keeps, htest] at hexec
    have htaken : v.wordTaken i w = { s with trunk := (v.wordTaken i w).trunk } := by rw [← hv]; rfl
    generalize v.wordTaken i w = x at hexec htaken
    have harm : ∀ b, x.arm b = s.arm b := fun b => by rw [htaken]; rfl
    refine ⟨_, hexec, fun hvalve hnormal => ?_, fun htesting => ?_, fun b hb => ?_, ?_⟩
    · dsimp only [State.arm]
      rw [if_neg (by rw [hnormal]; nofun), State.handOver_valve hvalve]
      refine ⟨fun hfault => ?_, fun hfault => ?_⟩
      · rw [if_pos hfault]
        refine (congrArg (fun z => (s.arm a).Takes z EndCause.deviceFault) ?_).mpr (Arm.takes_raiseCause _ _)
        exact (x.arm_modArm_self a _).trans (congrArg (Arm.raiseCause · .deviceFault) (harm a))
      · rw [if_neg hfault]
        exact harm a
    · dsimp only [State.arm]
      rw [if_pos htesting]
      exact harm a
    · dsimp only [State.arm]
      split_ifs
      · exact harm b
      · exact ((OneArm.handOver x r w).arms b hb).trans (harm b)
    · split_ifs
      · rw [htaken]
      · rw [State.handOver_keeps hrole, htaken]

end Sys2Proof.Machine
end

section
/-! PROOFS. The arm frame closed event that the close of a window brings (R42, R57), and the three blocks at it (R77, R95). -/

namespace Sys2Proof.Machine

/-! ## A sample is determined -/

/-- The increment set and the temperature age of a processed sample are determined by the state and the word. -/
theorem State.Samples.unique {s : State} {a : Fin 8} {p : StreamPos} {w : MeterWord} {u u' : Meter} {v v' : Increment}
    (h : s.Samples a p w u v) (h' : s.Samples a p w u' v') : v = v' ∧ u.age = u'.age := by
  obtain ⟨⟨-, -, -, -, hwindow, hflow, -⟩, htemp, hvt, hvf, huncounted, hcounted⟩ := h
  obtain ⟨⟨-, -, -, -, hwindow', hflow', -⟩, htemp', hvt', hvf', huncounted', hcounted'⟩ := h'
  have hread : u.temp = u'.temp ∧ u.age = u'.age := by
    split_ifs at htemp htemp' <;> exact ⟨htemp.1.trans htemp'.1.symm, htemp.2.trans htemp'.2.symm⟩
  have hused : v.temp = v'.temp := by rw [hvt, hvt', hread.1]
  refine ⟨?_, hread.2⟩
  have hext : v.iv = v'.iv → v.gv = v'.gv → v.nv = v'.nv → v.factor = v'.factor → v = v' := by
    intro h1 h2 h3 h4
    obtain ⟨iv, gv, nv, temp, factor⟩ := v
    obtain ⟨iv', gv', nv', temp', factor'⟩ := v'
    cases h1; cases h2; cases h3; cases h4; cases hused
    rfl
  by_cases hno : s.Seeds a p ∨ s.AboveLimit a p w.total
  · obtain ⟨hiv, hgv, hnv, hfactor, -⟩ := huncounted hno
    obtain ⟨hiv', hgv', hnv', hfactor', -⟩ := huncounted' hno
    exact hext (hiv.trans hiv'.symm) (hgv.trans hgv'.symm) (hnv.trans hnv'.symm)
      (by rw [hvf, hvf', hfactor, hfactor'])
  · obtain ⟨last, hlast⟩ : ∃ last, (s.meter a p).lastTotal = some last := by
      cases hlast : (s.meter a p).lastTotal with
      | none => exact absurd (.inl (.inl hlast)) hno
      | some last => exact ⟨last, rfl⟩
    obtain ⟨hiv, -, hfactor, hgv, -, hnv, -⟩ := hcounted hno _ last (State.convertsWith_iff.2 rfl) hlast
    obtain ⟨hiv', -, hfactor', hgv', -, hnv', -⟩ := hcounted' hno _ last (State.convertsWith_iff.2 rfl) hlast
    have hivs : v.iv = v'.iv := hiv.trans hiv'.symm
    have hwindows : u.window = u'.window := by rw [hwindow, hwindow', hivs]
    have hfactors : v.factor = v'.factor := by
      rw [hvf, hvf', hfactor, hfactor', hflow, hflow', hwindows]
    have hgvs : v.gv = v'.gv := by rw [hgv, hgv', hivs, hfactors]
    exact hext hivs hgvs (by rw [hnv, hnv', hgvs, hused]) hfactors

/-! ## The zero count -/

/-- The zero count of an arm by one meter and the other one (R90). -/
theorem State.zeroAfter_eq (s : State) (a : Fin 8) {p q : StreamPos} (hq : q ≠ p) :
    s.zeroAfter a = zeroNext (s.meter a p).sample (s.meter a q).sample (s.arm a).zeroCount := by
  have hcomm : ∀ x y : Option Nat, zeroNext x y (s.arm a).zeroCount = zeroNext y x (s.arm a).zeroCount := by
    intro x y
    cases x <;> cases y <;> simp only [zeroNext, and_comm]
  cases p <;> cases q
  · exact absurd rfl hq
  · rfl
  · exact hcomm _ _
  · exact absurd rfl hq

/-! ## The close of an arm's frame -/

/-- The state in which an arm finds its frame closed, reached within the frame: the arm and its zero count. -/
structure State.ClosesAs (s : State) (a : Fin 8) (x : Arm) (z : Nat) (v : State) : Prop where
  inFrame : InFrame s v
  arm : v.arm a = x
  arms : ∀ b, b ≠ a → v.arm b = s.arm b
  zero : v.zeroAfter a = z

theorem StreamPos.exists_ne (p : StreamPos) : ∃ q, q ≠ p := by
  cases p
  · exact ⟨.ctrl, nofun⟩
  · exact ⟨.wild, nofun⟩

/-- The settlement of a meter below the hold limit, the other meter of the arm being settled for the frame, brings arm frame
closed (R42, R51, R57). -/
theorem InFrame.closesAs {s u : State} (hframe : InFrame s u) {a : Fin 8} {p : StreamPos} {m : Meter} {z : Nat}
    (hsettled : (u.meter a p).settled s.trunk.frameCounter s.timebase.periodMs = m) (hage : m.age < s.config.tempHoldLimit)
    (hother : ∀ q, q ≠ p → (u.meter a q).settledFrame = s.trunk.frameCounter) (harms : ∀ b, b ≠ a → u.arm b = s.arm b)
    (hzero : ∀ q, q ≠ p → zeroNext m.sample (u.meter a q).sample (u.arm a).zeroCount = z) :
    u.settleMeter a p = (u.meterSettled a p).armFrameClosed a ∧ s.ClosesAs a (u.arm a) z (u.meterSettled a p) := by
  have hconfig : u.config = s.config := congrArg (fun t : Tables => t.config.work) hframe.side.tables
  have hmeter : (u.meterSettled a p).meter a p = m := by
    rw [State.meterSettled, State.modMeter, State.meter_setMeter_self, hframe.frame, hframe.side.timebase, hsettled]
  refine ⟨?_, ⟨hframe.side.trans (FieldSide.setMeter u a p _).trunkSide, ?_, ?_, ?_⟩, ?_, fun b hb => ?_, ?_⟩
  · have hsettle := (u.settleMeter_eq a p).2 (by rw [hframe.frame]; exact hother)
    rw [hframe.frame, hframe.side.timebase, hsettled, hconfig, if_neg (Nat.not_le.2 hage)] at hsettle
    exact hsettle.trans (congrArg (fun v : State => v.armFrameClosed a) (State.modArm_id _ a))
  · rw [State.meterSettled, State.modMeter_trunk, hframe.frame]
  · rw [State.meterSettled, State.modMeter_trunk, hframe.slotCount]
  · rw [State.meterSettled, State.modMeter_trunk, hframe.table]
  · exact State.modMeter_arm u a p _ a
  · exact (State.modMeter_arm u a p _ b).trans (harms b hb)
  · obtain ⟨q, hq⟩ := StreamPos.exists_ne p
    rw [State.zeroAfter_eq _ a hq, hmeter, State.meterSettled, State.modMeter_arm, State.modMeter,
      State.meter_setMeter_ne _ _ fun h => hq h.2.symm, hzero q hq]

/-- A silent window that closes an arm's frame. -/
theorem State.MeterSilent.closes {s : State} {i : Fin 64} {a : Fin 8} {p : StreamPos} (h : s.MeterSilent i a p)
    (hcloses : s.ClosesFrame a p) :
    ∃ v, Machine.exec (.answerWindowClose []) s = .next (v.armFrameClosed a) ∧
      s.ClosesAs a (s.arm a) (s.arm a).zeroCount v := by
  obtain ⟨g, hexec, hframe⟩ := h.exec
  obtain ⟨-, -, -, hsample, -⟩ := h
  obtain ⟨hage, hother⟩ := hcloses
  have hsettled : ((s.modTrunk g).meter a p).settled s.trunk.frameCounter s.timebase.periodMs =
      { (s.meter a p).pushFlow 0 s.timebase.periodMs with
        age := satSucc Config.ageCeiling (s.meter a p).age, settledFrame := s.trunk.frameCounter } := by
    rw [State.modTrunk_meter, Meter.settled, hsample]
  obtain ⟨hsettle, hv⟩ := hframe.closesAs (z := (s.arm a).zeroCount) hsettled hage
    (fun q hq => by rw [State.modTrunk_meter]; exact hother q hq) (fun _ _ => rfl)
    (fun q _ => by show zeroNext (s.meter a p).sample _ _ = _; rw [hsample]; rfl)
  exact ⟨_, hexec.trans (congrArg Host.Outcome.next hsettle), hv⟩

/-- A meter's word that closes an arm's frame. -/
theorem State.MeterWordLast.closes {s : State} {i : Fin 64} {a : Fin 8} {p : StreamPos} {w : List Byte} {x : Arm} {z : Nat}
    (h : s.MeterWordLast i a p w x z) (hother : ∀ q, q ≠ p → (s.meter a q).settledFrame = s.trunk.frameCounter) :
    ∃ v, Machine.exec (.answerWindowClose w) s = .next (v.armFrameClosed a) ∧ s.ClosesAs a x z v := by
  obtain ⟨hopen, hnext, hlast, hgood, hfresh, htest, hfirst, hcode, hplausible, u', v', hsamples, hroutes, hage, hzero⟩ := h
  obtain ⟨u, y, hexec, hframe, hu⟩ := exec_answerWindowClose_meter hopen hnext hgood hfresh htest hfirst
  have hstatus : wordMeterStatus w = if byteAt w 5 = 0 then .ok else .warn := by
    rw [wordMeterStatus_eq (Nat.le_succ_of_le hcode)]
    by_cases h0 : byteAt w 5 = 0
    · rw [if_pos h0, if_pos h0]
    · rw [if_neg h0, if_neg h0, if_pos (by omega)]
  rw [hstatus] at hu
  change s.Processed a p { total := numAt w 1 2, temp := signed16 (numAt w 3 2),
                           status := if byteAt w 5 = 0 then .ok else .warn } y u at hu
  obtain ⟨hv, hages⟩ := (s.processMeter_samples a p _).unique hsamples
  have hcauses : s.sampleCauses a p { total := numAt w 1 2, temp := signed16 (numAt w 3 2),
                                      status := if byteAt w 5 = 0 then .ok else .warn } = [] := by
    obtain ⟨implausible, fault, heq, -, himplausible, hfault⟩ := State.sampleCauses_eq (s := s) (a := a) (p := p) (w :=
      { total := numAt w 1 2, temp := signed16 (numAt w 3 2), status := if byteAt w 5 = 0 then .ok else .warn })
    rw [heq, himplausible hplausible, hfault, if_neg (by dsimp only; split_ifs <;> nofun)]
    rfl
  rw [← hv] at hroutes
  generalize ({ total := numAt w 1 2, temp := signed16 (numAt w 3 2),
                status := if byteAt w 5 = 0 then .ok else .warn } : MeterWord) = word
    at hu hv hages hcauses hroutes
  have harm : u.arm a = x := by
    rw [hu.arm, hcauses]
    exact hu.routes.trans hroutes.symm
  have hcount : x.zeroCount = (s.arm a).zeroCount := by
    rw [show x = _ from hroutes]
    cases p <;> dsimp only <;> split_ifs <;> rfl
  have hsample := (s.processMeter_samples a p word).1.2.2.2.1
  obtain ⟨hsettle, hclosed⟩ := hframe.closesAs (a := a) (p := p) (z := z)
    (m := { (s.processMeter a p word).1 with settledFrame := s.trunk.frameCounter })
    (by rw [hu.meter, Meter.settled_of_sample hsample]) (by rw [← hages] at hage; exact hage)
    (fun q hq => by rw [hu.meters a q fun k => hq k.2]; exact hother q hq) hu.arms (fun q hq => by
      show zeroNext (s.processMeter a p word).1.sample _ _ = z
      rw [hsample, hu.meters a q fun k => hq k.2, harm, hcount, hzero q hq, hv]
      cases (s.meter a q).sample with
      | none => rfl
      | some other => simp only [zeroNext, satSucc_eq_min]; rfl)
  rw [State.settleAtClose_meter, if_neg fun hlater => ?_, hsettle] at hexec
  · exact ⟨_, hexec, harm ▸ hclosed⟩
  · obtain ⟨j, hj, hassigned⟩ := hframe.laterSlot_iff.1 hlater
    exact hlast j hj hassigned

/-- The close of a window that closes an arm's frame brings arm frame closed, which finds the arm and the zero count. -/
theorem State.FrameCloses.exec {s : State} {i : Fin 64} {a : Fin 8} {p : StreamPos} {w : List Byte} {x : Arm} {z : Nat}
    (h : s.FrameCloses i a p w x z) :
    ∃ v, Machine.exec (.answerWindowClose w) s = .next (v.armFrameClosed a) ∧ s.ClosesAs a x z v := by
  rcases h with ⟨rfl, hsilent, hcloses, rfl, rfl⟩ | ⟨hword, hother⟩
  · exact hsilent.closes hcloses
  · exact hword.closes hother

/-! ## The three blocks -/

theorem freeOrder_mem (n : Nat) : freeOrder n ∈ blockOrders := by
  have hlt : Config.blockOrder n % 6 < blockOrders.length := Nat.mod_lt _ (by decide)
  unfold freeOrder
  rw [List.getD_eq_getElem _ _ hlt]
  exact List.getElem_mem hlt

theorem State.ClosesAs.choose {s v : State} {a : Fin 8} {x : Arm} {z : Nat} (h : s.ClosesAs a x z v) (n : Nat) :
    s.ClosesAs a x z { v with choices := n } := by
  obtain ⟨⟨hside, hframe, hcount, htable⟩, harm, harms, hzero⟩ := h
  obtain ⟨h1, h2, h3, h4, h5, h6, h7, h8, h9⟩ := hside
  exact ⟨⟨⟨h1, h2, h3, h4, h5, h6, h7, h8, h9⟩, hframe, hcount, htable⟩, harm, harms, hzero⟩

/-- The close of a window that closes the frame of an arm with an open batch brings the three blocks, in some order
(R77, R95). -/
theorem State.FrameCloses.runs {s : State} {i : Fin 64} {a : Fin 8} {p : StreamPos} {w : List Byte} {x : Arm} {z : Nat}
    (h : s.FrameCloses i a p w x z) (hopen : x.isOpen = true) :
    ∃ v order, order ∈ blockOrders ∧ Machine.exec (.answerWindowClose w) s = .next (v.runBlocks a order) ∧
      s.ClosesAs a x z v := by
  obtain ⟨v, hexec, hv⟩ := h.exec
  unfold State.armFrameClosed at hexec
  rw [if_neg (by rw [hv.arm, hopen]; nofun)] at hexec
  by_cases hquiet : v.blocksQuiet a = true
  · rw [if_pos hquiet] at hexec
    exact ⟨v, _, by simp [blockOrders], hexec, hv⟩
  · rw [if_neg hquiet] at hexec
    exact ⟨_, _, freeOrder_mem _, hexec, hv.choose _⟩

theorem State.modArm_of_fixed {s : State} {a : Fin 8} {f : Arm → Arm} (h : f (s.arm a) = s.arm a) : s.modArm a f = s := by
  have hid := s.modArm_id a
  unfold State.modArm at hid ⊢
  rw [h]
  exact hid

/-- An arm in which neither the Ratio Controller nor the Additive Scheduler has anything to do (R111, R114, R120). -/
structure Arm.AtRest (x : Arm) : Prop where
  notRunning : x.state ≠ .running
  straight : x.StraightWithin
  noShot : ∀ e ∈ x.entries, e.shot = none

/-- The Ratio Controller leaves an arm that received the event outside RUNNING, unless it watches a straight load. -/
theorem Arm.ratioAct_of_not_received {x : Arm} (hstraight : x.StraightWithin)
    (hset : x.state = .running → x.ratio.ctrlSet = 0) (qW : Nat) : x.ratioAct false qW = x := by
  unfold Arm.ratioAct
  split
  · exact if_neg (by simp)
  · next hmode =>
    unfold Arm.straightWatch
    have hcleared : (if x.state = .running then { x with ratio := { x.ratio with ctrlSet := 0 } } else x) = x := by
      by_cases hrunning : x.state = .running
      · rw [if_pos hrunning, ← hset hrunning]
      · exact if_neg hrunning
    dsimp only
    rw [hcleared]
    exact if_neg fun hflood => Nat.not_lt.2 (hstraight hmode) hflood.2
  · rfl

/-- An entry without a shot has nothing to age. -/
theorem Arm.ageShot_of_noShot {x : Arm} (h : ∀ e ∈ x.entries, e.shot = none) (k : Nat) : x.ageShot k = x := by
  unfold Arm.ageShot
  split
  · rfl
  · next e he =>
    rw [h e (List.mem_of_getElem? he)]

theorem Arm.AtRest.additivePass {x : Arm} (h : x.AtRest) : x.additivePass = x := by
  have hentry : ∀ k, x.passEntry k = x := fun k => by
    unfold Arm.passEntry
    dsimp only
    rw [Arm.ageShot_of_noShot h.noShot]
    exact if_neg h.notRunning
  unfold Arm.additivePass
  generalize List.range x.entries.length = l
  induction l with
  | nil => rfl
  | cons k l ih => rw [List.foldl_cons, hentry, ih]

theorem Arm.AtRest.ratioAct {x : Arm} (h : x.AtRest) (qW : Nat) : x.ratioAct false qW = x :=
  Arm.ratioAct_of_not_received h.straight (fun hrunning => absurd hrunning h.notRunning) qW

/-- On an arm at rest the blocks act as the Arm Controller, with the scheduler after it or before it. -/
theorem State.runBlocks_of_rest {v : State} {a : Fin 8} {order : List Block} (horder : order ∈ blockOrders)
    (hrest : (v.arm a).AtRest)
    (hratio : ∀ q, ((v.armAct a).arm a).ratioAct false q = (v.armAct a).arm a)
    (hratio' : ∀ q, ((v.armAct a).arm a).additivePass.ratioAct false q = ((v.armAct a).arm a).additivePass) :
    v.runBlocks a order = v.armAct a ∨ v.runBlocks a order = (v.armAct a).modArm a Arm.additivePass := by
  have hreceived : ((v.arm a).state == .running) = false := by
    rw [beq_eq_false_iff_ne]
    exact hrest.notRunning
  have hR : ∀ u : State, (∀ q, (u.arm a).ratioAct false q = u.arm a) →
      State.runBlock a (v.arm a).state u .ratioController = u := fun u hu => by
    unfold State.runBlock
    rw [hreceived]
    exact State.modArm_of_fixed (hu _)
  have hA : ∀ u : State, State.runBlock a (v.arm a).state u .armController = u.armAct a := fun _ => rfl
  have hS : ∀ u : State, State.runBlock a (v.arm a).state u .additiveScheduler = u.modArm a Arm.additivePass := fun _ => rfl
  have hRv := hR v hrest.ratioAct
  have hSv : v.modArm a Arm.additivePass = v := State.modArm_of_fixed hrest.additivePass
  have hRt := hR _ hratio
  have hRst := hR ((v.armAct a).modArm a Arm.additivePass) fun q => by rw [State.arm_modArm_self]; exact hratio' q
  unfold State.runBlocks
  simp only [blockOrders, List.mem_cons, List.not_mem_nil, or_false] at horder
  rcases horder with rfl | rfl | rfl | rfl | rfl | rfl <;>
    simp only [List.foldl_cons, List.foldl_nil, hA, hS, hRv, hSv, hRt, hRst, true_or, or_true]

/-- On an arm at rest that the Arm Controller leaves at rest the blocks act as the Arm Controller. -/
theorem State.runBlocks_of_rest_kept {v : State} {a : Fin 8} {order : List Block} (horder : order ∈ blockOrders)
    (hrest : (v.arm a).AtRest) (hrest' : ((v.armAct a).arm a).AtRest) : v.runBlocks a order = v.armAct a := by
  rcases State.runBlocks_of_rest horder hrest hrest'.ratioAct (by rw [hrest'.additivePass]; exact hrest'.ratioAct) with h | h
  · exact h
  · rw [h]
    exact State.modArm_of_fixed hrest'.additivePass

end Sys2Proof.Machine
end

section
/-! PROOFS. The three watches that end a batch (R51, R92, R112, R113). -/

namespace Sys2Proof.Machine

theorem State.modArm_eq_setArm (s : State) (a : Fin 8) (f : Arm → Arm) :
    s.modArm a f = s.setArm a ((s.modArm a f).arm a) := by
  rw [State.arm_modArm_self]
  rfl

/-! ## The band check -/

theorem Arm.actualFraction_of_ctx {x : Arm} {c : Context} (hctx : x.ctx = some c) : x.actualFraction =
    if x.wild.net + x.ctrl.net = 0 then none
    else some ((if c.recipe.ethanolControlled then x.ctrl.net else x.wild.net) * 10000 / (x.wild.net + x.ctrl.net)) := by
  unfold Arm.actualFraction Arm.ethanolBase
  rw [hctx]
  dsimp only
  by_cases hethanol : c.recipe.ethanolControlled = true
  · rw [if_pos hethanol, if_pos hethanol, Nat.add_comm x.wild.net]
  · rw [if_neg hethanol, if_neg hethanol, Nat.add_comm x.ctrl.net]

/-- The count of band checks outside the band after a check that is made (R112). -/
theorem Arm.bandCount_of_checked {x : Arm} {c : Context} (hctx : x.ctx = some c)
    (hchecked : c.recipe.checkVolume * 1000 ≤ x.wild.net + x.ctrl.net) : x.bandCount c =
      let n := x.wild.net + x.ctrl.net
      let ethanol := if c.recipe.ethanolControlled then x.ctrl.net else x.wild.net
      if n = 0 then x.ratio.outCount
      else if c.recipe.band < Int.natAbs (((ethanol * 10000 / n : Nat) : Int) - c.recipe.fraction)
      then min 500 (x.ratio.outCount + 1) else 0 := by
  unfold Arm.bandCount
  rw [if_neg (by exact Nat.not_lt.2 hchecked), Arm.actualFraction_of_ctx hctx]
  dsimp only
  by_cases hn : x.wild.net + x.ctrl.net = 0
  · rw [if_pos hn, if_pos hn]
  · rw [if_neg hn, if_neg hn]
    simp only [outsideBand, decide_eq_true_iff, satSucc_eq_min]

/-- The arm with its out-of-band count replaced (R112). -/
def Arm.withOutCount (x : Arm) (n : Nat) : Arm := { x with ratio := { x.ratio with outCount := n } }

theorem Arm.bandCheck_fails {x : Arm} {c : Context}
    (h : x.bandChecked c = true ∧ c.recipe.persistence ≤ x.bandCount c) :
    x.bandCheck c = (x.withOutCount (x.bandCount c)).raiseCause .ratioFault := if_pos h

theorem Arm.bandCheck_passes {x : Arm} {c : Context}
    (h : ¬ (x.bandChecked c = true ∧ c.recipe.persistence ≤ x.bandCount c)) :
    x.bandCheck c = x.withOutCount (x.bandCount c) := if_neg h

theorem Arm.enterClosing_ratio (x : Arm) (c : EndCause) :
    (x.enterClosing c).ratio = { x.ratio with ctrlSet := 0, limited := false } := by
  unfold Arm.enterClosing
  dsimp only
  rw [Arm.closeEntries_eq]
  split <;> rfl

/-! ## The watches at an arm frame closed event -/

theorem AdditiveEntry.dropped_shot (e : AdditiveEntry) : e.dropped.shot = e.shot := by
  unfold AdditiveEntry.dropped
  split <;> rfl

theorem Arm.raiseCause_straight {x : Arm} (hflows : x.state.flowing) (hstraight : x.StraightWithin) (c : EndCause) :
    (x.raiseCause c).StraightWithin := by
  obtain ⟨-, -, -, -, -, -, -, -, -, -, -, hctrl, -⟩ := (x.takes_raiseCause c).1 hflows
  intro hmode
  rw [hctrl]
  rw [Arm.raiseCause_flowing x c hflows, Arm.enterClosing_ratio] at hmode
  exact hstraight hmode

/-- A cause other than NORMAL leaves a flowing batch without shots at rest (R96, R128). -/
theorem Arm.raiseCause_atRest {x : Arm} (hflows : x.state.flowing) (hstraight : x.StraightWithin)
    (hshot : ∀ e ∈ x.entries, e.shot = none) {c : EndCause} (hc : c ≠ .normal) : (x.raiseCause c).AtRest := by
  obtain ⟨hstate, -⟩ := (x.takes_raiseCause c).1 hflows
  refine ⟨by rw [hstate]; nofun, Arm.raiseCause_straight hflows hstraight c, fun e he => ?_⟩
  · rcases x.raiseCause_entries hc with hentries | hentries <;> rw [hentries] at he
    · exact hshot e he
    · obtain ⟨e', he', rfl⟩ := List.mem_map.1 he
      exact (AdditiveEntry.dropped_shot e').trans (hshot e' he')

/-! ## The watches at an arm frame closed event -/

theorem InFrame.config {s t : State} (h : InFrame s t) : t.config = s.config :=
  congrArg (fun u : Tables => u.config.work) h.side.tables

/-- The hold limit of a HOLDING or HELD arm in the order of the blocks, the arm without shots (R92). -/
theorem State.ClosesAs.holdDue {s v : State} {a : Fin 8} {x : Arm} {z : Nat} (hv : s.ClosesAs a x z v) :
    v.holdDue a = true ↔ s.config.holdLimitS * 1000 / s.config.periodMs ≤ x.holdTimer + 1 := by
  unfold State.holdDue
  rw [decide_eq_true_iff, hv.arm, hv.inFrame.config]
  rfl

theorem State.armAct_holding {v : State} {a : Fin 8} (h : (v.arm a).state = .holding) : v.armAct a = v.holdingStep a := by
  unfold State.armAct
  rw [h]

theorem State.armAct_held {v : State} {a : Fin 8} (h : (v.arm a).state = .held) : v.armAct a = v.heldStep a := by
  unfold State.armAct
  rw [h]

theorem State.armAct_closing {v : State} {a : Fin 8} (h : (v.arm a).state = .closing) : v.armAct a = v.closingStep a := by
  unfold State.armAct
  rw [h]

theorem State.armAct_running {v : State} {a : Fin 8} (h : (v.arm a).state = .running) :
    v.armAct a = v.modArm a Arm.runningStep := by
  unfold State.armAct
  rw [h]

/-- The Arm Controller of a HOLDING or HELD arm whose hold timer reaches the limit (R92). -/
theorem State.armAct_holdDue {v : State} {a : Fin 8} (h : (v.arm a).state = .holding ∨ (v.arm a).state = .held)
    (hdue : v.holdDue a = true) : v.armAct a = v.modArm a (fun x => x.holdTick.raiseCause .holdTimeout) := by
  rcases h with h | h
  · rw [State.armAct_holding h]
    exact if_pos hdue
  · rw [State.armAct_held h]
    exact if_pos hdue

theorem State.zeroAfter_congr {s t : State} {a : Fin 8} (hmeters : ∀ q, t.meter a q = s.meter a q)
    (hcount : (t.arm a).zeroCount = (s.arm a).zeroCount) : t.zeroAfter a = s.zeroAfter a := by
  unfold State.zeroAfter
  rw [hmeters, hmeters, hcount]

/-- The Arm Controller of a HOLDING arm that neither times out nor settles (R90, R92). -/
theorem State.armAct_holding_counts {v : State} {a : Fin 8} (h : (v.arm a).state = .holding) (hdue : v.holdDue a = false)
    (hzero : v.zeroAfter a < 20) : (v.armAct a).arm a =
      { v.arm a with holdTimer := (v.arm a).holdTimer + 1, zeroCount := v.zeroAfter a } := by
  have hreached : v.settleReached a = false := decide_eq_false (Nat.not_le.2 hzero)
  rw [State.armAct_holding h, State.holdingStep, if_neg (by rw [hdue]; nofun), if_neg (by rw [hreached]; nofun),
    State.storeZero, State.modArm_modArm, State.arm_modArm_self,
    State.zeroAfter_congr (fun q => v.modArm_meter a _ a q) ((congrArg Arm.zeroCount (v.arm_modArm_self a Arm.holdTick)).trans rfl)]
  rfl

/-! ## The statement -/

/-- Settles O45: each command makes its own test; at an arm frame closed event the blocks beside the Arm Controller are at
rest. -/
theorem watchesEndBatch : Obligations.WatchesEndBatch := by
  intro s a hpow
  refine ⟨fun hstate hdue => ?_, fun p hage => ?_, fun c hrunning hmode hctx => ?_, fun i p hsilent hother => ?_,
    fun i p w x z hcloses hstraight hstate hshot => ?_⟩
  · refine ⟨_, congrArg Host.Outcome.next ((if_pos hpow).trans (if_pos ⟨hstate, decide_eq_true hdue⟩)),
      s.modArm_eq_setArm a _, ?_⟩
    rw [State.holdExpire, State.arm_modArm_self]
    exact ((s.arm a).holdTick.takes_raiseCause .holdTimeout).1 (.inr hstate)
  · refine ⟨_, congrArg Host.Outcome.next ((if_pos hpow).trans (if_pos hage)), s.modArm_eq_setArm a _, ?_⟩
    rw [State.arm_modArm_self]
    exact (s.arm a).takes_raiseCause .tempLost
  · intro n e hchecked hn houtside hpersistence hcount
    have hband : (s.arm a).bandCount c = min 500 ((s.arm a).ratio.outCount + 1) := by
      rw [Arm.bandCount_of_checked hctx hchecked]
      dsimp only
      rw [if_neg (by omega), if_pos houtside]
    have hfails : (s.arm a).bandChecked c = true ∧ c.recipe.persistence ≤ (s.arm a).bandCount c := by
      rw [hband]
      exact ⟨decide_eq_true hchecked, by omega⟩
    have hexec : exec (.ratioFault a) s = .next (s.modArm a (fun x => x.bandCheck c)) := by
      refine congrArg Host.Outcome.next ((if_pos hpow).trans ?_)
      dsimp only
      rw [hctx]
      exact if_pos ⟨hrunning, hmode, hfails⟩
    refine ⟨_, hexec, s.modArm_eq_setArm a _, ?_⟩
    rw [State.arm_modArm_self]
    rw [Arm.bandCheck_fails hfails]
    refine ⟨(((s.arm a).withOutCount _).takes_raiseCause .ratioFault).1 (.inl hrunning), ?_⟩
    rw [Arm.raiseCause_flowing ((s.arm a).withOutCount ((s.arm a).bandCount c)) _ (.inl hrunning), Arm.enterClosing_ratio]
    rfl
  · obtain ⟨g, hexec, hframe⟩ := hsilent.exec
    obtain ⟨-, -, -, hsample, -⟩ := hsilent
    obtain ⟨q, hq⟩ := StreamPos.exists_ne p
    have hsettle := ((s.modTrunk g).settleMeter_eq a p).1 ⟨q, hq, by rw [State.modTrunk_meter, hframe.frame]; exact hother q hq⟩
    have hage : (((s.modTrunk g).meter a p).settled (s.modTrunk g).trunk.frameCounter (s.modTrunk g).timebase.periodMs).age =
        if (s.meter a p).age < 3000 then (s.meter a p).age + 1 else 3000 := by
      rw [State.modTrunk_meter, Meter.settled, hsample]
      rfl
    rw [hage, hframe.config] at hsettle
    refine ⟨_, hexec.trans (congrArg Host.Outcome.next hsettle), ?_⟩
    intro age
    have hmeter := State.meter_setMeter_self (s.modTrunk g) a p
      (((s.modTrunk g).meter a p).settled (s.modTrunk g).trunk.frameCounter (s.modTrunk g).timebase.periodMs)
    rw [State.modArm_meter, State.arm_modArm_self, State.meterSettled, State.modMeter, State.setMeter_arm, hmeter, hage,
      Meter.settled_settledFrame, hframe.frame]
    refine ⟨rfl, rfl, fun hcold => ?_, fun hwarm => ?_, fun b hb => ?_⟩
    · rw [if_pos hcold]
      exact (s.arm a).takes_raiseCause .tempLost
    · rw [if_neg (Nat.not_le.2 hwarm)]
      rfl
    · rw [State.arm_modArm_ne _ _ hb.symm, State.setMeter_arm]
      rfl
  · have hopen : x.isOpen = true := by
      rcases hstate with h | h <;> rw [Arm.isOpen, h] <;> rfl
    obtain ⟨v, order, horder, hexec, hv⟩ := hcloses.runs hopen
    have hrest : (v.arm a).AtRest := by
      rw [hv.arm]
      exact ⟨by rcases hstate with h | h <;> rw [h] <;> nofun, hstraight, hshot⟩
    have harms : ∀ b, b ≠ a → (v.runBlocks a order).arm b = s.arm b := fun b hb =>
      ((OneBatch.foldl _ (OneBatch.runBlock _) order v).arms b hb).trans (hv.arms b hb)
    refine ⟨_, hexec, harms, fun hdue => ?_, fun hdue => ⟨fun hheld => ?_, fun hholding hz => ?_⟩⟩
    · have hact := State.armAct_holdDue (v := v) (a := a) (by rw [hv.arm]; exact hstate) (hv.holdDue.2 hdue)
      have harm : (v.armAct a).arm a = x.holdTick.raiseCause .holdTimeout := by
        rw [hact, State.arm_modArm_self, hv.arm]
      rw [State.runBlocks_of_rest_kept horder hrest (by
        rw [harm]; exact Arm.raiseCause_atRest (x := x.holdTick) (.inr hstate) hstraight hshot nofun), harm]
      exact (x.holdTick.takes_raiseCause .holdTimeout).1 (.inr hstate)
    · have harm : (v.armAct a).arm a = { x with holdTimer := x.holdTimer + 1 } := by
        rw [State.armAct_held (by rw [hv.arm, hheld]), State.heldStep, if_neg (mt hv.holdDue.1 (Nat.not_le.2 hdue)),
          State.arm_modArm_self, hv.arm]
        rfl
      rw [State.runBlocks_of_rest_kept horder hrest (by
        rw [harm]; exact ⟨by rw [hheld]; nofun, hstraight, hshot⟩), harm]
    · have harm := State.armAct_holding_counts (v := v) (a := a) (by rw [hv.arm, hholding])
        (Bool.eq_false_iff.2 (mt hv.holdDue.1 (Nat.not_le.2 hdue))) (by rw [hv.zero]; exact hz)
      rw [hv.arm, hv.zero] at harm
      rw [State.runBlocks_of_rest_kept horder hrest (by
        rw [harm]; exact ⟨by rw [hholding]; nofun, hstraight, hshot⟩), harm]

end Sys2Proof.Machine
end

section
/-! PROOFS. The Additive Scheduler's pass in which no shot reaches its timeout (R120 to R122): every entry takes its own pass,
and nothing but the entries and the held toggles changes. -/

namespace Sys2Proof.Machine

/-- The arm with its entries and its injectors replaced. -/
def Arm.withShots (x : Arm) (entries : List AdditiveEntry) (injectors : Vector Injector 4) : Arm :=
  { x with entries := entries, injectors := injectors }

/-- The arm with its phase, its wild set-point and its Ratio Controller replaced. -/
def Arm.withControl (x : Arm) (phase : Phase) (wildSet : Nat) (ratio : RatioCtl) : Arm :=
  { x with phase := phase, wildSet := wildSet, ratio := ratio }

/-- No shot of an entry reaches its timeout at the next rise of its age (R125). -/
def AdditiveEntry.NoTimeout (e : AdditiveEntry) : Prop := ∀ sh, e.shot = some sh → sh.age + 1 < 100

/-- The entry with the age of its shot raised (R120). -/
def AdditiveEntry.aged (e : AdditiveEntry) : AdditiveEntry :=
  { e with shot := e.shot.map (fun sh => { sh with age := sh.age + 1 }) }

/-- The pass of an entry issues a shot (R121). -/
def Arm.Issues (x : Arm) (e : AdditiveEntry) : Prop :=
  x.state = .running ∧ e.state = .active ∧ e.nextPoint < x.netDelivered ∧ e.shot = none ∧
  x.injectors[e.item.injector].busy = false

/-- The entry after a pass that issues no shot (R120 to R122). -/
def AdditiveEntry.passed (e : AdditiveEntry) (state : ArmState) (n : Nat) : AdditiveEntry :=
  if state = .running then
    if e.state = .active ∧ e.nextPoint < n then e.aged.crossed n else e.aged.aimed n
  else e.aged

/-- The volume of the shot that the pass of an entry issues (R121). -/
def AdditiveEntry.issued (e : AdditiveEntry) (n : Nat) : Nat :=
  shotVolume (e.item.nominal + (e.crossed n).deficit) e.item.nominal

section
variable {x : Arm} {k : Nat} {e : AdditiveEntry}

theorem Arm.passEntry_of_absent (hk : x.entries[k]? = none) : x.passEntry k = x := by
  unfold Arm.passEntry Arm.ageShot Arm.crossPoint
  rw [hk]
  dsimp only
  rw [hk]
  exact ite_self x

/-- Step 1 of the pass below the timeout (R120). -/
theorem Arm.ageShot_of_noTimeout (hk : x.entries[k]? = some e) (hn : e.NoTimeout) : x.ageShot k = x.setEntry k e.aged := by
  cases hshot : e.shot with
  | none =>
    have haged : e.aged = e := by
      unfold AdditiveEntry.aged
      rw [hshot, Option.map_none, ← hshot]
    have hset : x.entries.set k e = x.entries := by
      obtain ⟨hlt, rfl⟩ := List.getElem?_eq_some_iff.1 hk
      exact List.set_getElem_self hlt
    rw [Arm.ageShot_of_none hk hshot, haged, Arm.setEntry, hset]
  | some sh =>
    rw [Arm.ageShot_of_some hk hshot (hn sh hshot)]
    unfold AdditiveEntry.aged
    rw [hshot]
    rfl

/-- A pass that issues a shot (R121). -/
theorem Arm.passEntry_issues (hk : x.entries[k]? = some e) (h : x.Issues e) :
    x.passEntry k = x.issueShot k (e.crossed x.netDelivered) (e.issued x.netDelivered) := by
  obtain ⟨hstate, hactive, hcross, hshot, hbusy⟩ := h
  rw [Arm.passEntry_of_none hk hstate hshot, Arm.crossPoint_of_crossing hk hactive hcross hshot hbusy]
  rfl

/-- A pass that issues no shot (R120, R122). -/
theorem Arm.passEntry_sets (hk : x.entries[k]? = some e) (hn : e.NoTimeout) (h : ¬ x.Issues e) :
    x.passEntry k = x.setEntry k (e.passed x.state x.netDelivered) := by
  have hkept := Arm.setEntry_getElem? hk e.aged
  unfold Arm.passEntry AdditiveEntry.passed
  dsimp only
  rw [Arm.ageShot_of_noTimeout hk hn]
  by_cases hstate : x.state = .running
  · rw [if_pos (by exact hstate), if_pos hstate]
    by_cases hcross : e.state = .active ∧ e.nextPoint < x.netDelivered
    · have hheld : e.aged.shot ≠ none ∨ (x.setEntry k e.aged).injectors[e.aged.item.injector].busy = true := by
        by_contra hfree
        rw [not_or, not_not, Bool.not_eq_true] at hfree
        exact h ⟨hstate, hcross.1, hcross.2, Option.map_eq_none_iff.1 hfree.1, hfree.2⟩
      rw [if_pos hcross, Arm.crossPoint_of_withheld hkept hcross.1 hcross.2 hheld, Arm.setEntry_setEntry]
      rfl
    · rw [if_neg hcross, Arm.crossPoint_of_not_crossing hkept
        (by rw [← not_lt]; exact not_and_or.1 hcross), Arm.setEntry_setEntry]
      rfl
  · rw [if_neg (by exact hstate), if_neg hstate]

end

/-- The passes of entries leave everything but the entries, and of the injectors everything but the held toggles. -/
def Arm.OnlyShots (x y : Arm) : Prop := y = x.withShots y.entries y.injectors ∧ x.ShotsOnly y

theorem Arm.OnlyShots.refl (x : Arm) : x.OnlyShots x := ⟨rfl, .refl x⟩

theorem Arm.OnlyShots.trans {x y z : Arm} (h : x.OnlyShots y) (h' : y.OnlyShots z) : x.OnlyShots z :=
  ⟨h'.1.trans (congrArg (fun u : Arm => u.withShots z.entries z.injectors) h.1 :), h.2.trans h'.2⟩

theorem Arm.OnlyShots.state {x y : Arm} (h : x.OnlyShots y) : y.state = x.state := (congrArg Arm.state h.1 :)

theorem Arm.onlyShots_setEntry (x : Arm) (k : Nat) (e : AdditiveEntry) : x.OnlyShots (x.setEntry k e) :=
  ⟨rfl, rfl, rfl, fun _ => ⟨rfl, rfl, .inl rfl⟩⟩

theorem Arm.onlyShots_issueShot (x : Arm) (k : Nat) (e : AdditiveEntry) (v : Nat) : x.OnlyShots (x.issueShot k e v) := by
  refine ⟨rfl, rfl, rfl, fun j => ?_⟩
  by_cases hj : e.item.injector = j
  · rw [Arm.issueShot_injector x k hj]
    exact ⟨rfl, rfl, .inr rfl⟩
  · rw [Arm.issueShot_injector_ne x k hj]
    exact ⟨rfl, rfl, .inl rfl⟩

/-- The entries in which no shot reaches its timeout. -/
def Arm.NoTimeoutAt (x : Arm) (k : Nat) : Prop := ∀ e, x.entries[k]? = some e → e.NoTimeout

section
variable {x : Arm} {k : Nat}

theorem Arm.passEntry_onlyShots (h : x.NoTimeoutAt k) : x.OnlyShots (x.passEntry k) := by
  cases hk : x.entries[k]? with
  | none => rw [Arm.passEntry_of_absent hk]; exact .refl x
  | some e =>
    by_cases hissues : x.Issues e
    · rw [Arm.passEntry_issues hk hissues]
      exact x.onlyShots_issueShot k _ _
    · rw [Arm.passEntry_sets hk (h e hk) hissues]
      exact x.onlyShots_setEntry k _

theorem Arm.passEntry_getElem?_ne (h : x.NoTimeoutAt k) {l : Nat} (hl : k ≠ l) :
    (x.passEntry k).entries[l]? = x.entries[l]? := by
  cases hk : x.entries[k]? with
  | none => rw [Arm.passEntry_of_absent hk]
  | some e =>
    by_cases hissues : x.Issues e
    · rw [Arm.passEntry_issues hk hissues]
      exact List.getElem?_set_ne hl
    · rw [Arm.passEntry_sets hk (h e hk) hissues]
      exact List.getElem?_set_ne hl

theorem Arm.OnlyShots.issues_iff {y : Arm} (h : x.OnlyShots y) (e : AdditiveEntry) : y.Issues e ↔ x.Issues e := by
  have hstate := h.state
  obtain ⟨-, hw, hc, hj⟩ := h
  unfold Arm.Issues Arm.netDelivered
  rw [hstate, hw, hc, (hj _).1]

/-- The pass of an entry gives the same entry on an arm whose other entries and held toggles differ. -/
theorem Arm.OnlyShots.passEntry_getElem? {y : Arm} (h : x.OnlyShots y) (hn : x.NoTimeoutAt k)
    (hk : y.entries[k]? = x.entries[k]?) : (y.passEntry k).entries[k]? = (x.passEntry k).entries[k]? := by
  cases hx : x.entries[k]? with
  | none =>
    rw [Arm.passEntry_of_absent hx, Arm.passEntry_of_absent (hk.trans hx), hk]
  | some e =>
    have hy := hk.trans hx
    obtain ⟨hstate, hw, hc, hj⟩ : y.state = x.state ∧ x.ShotsOnly y := ⟨h.state, h.2⟩
    have hnet : y.netDelivered = x.netDelivered := by
      unfold Arm.netDelivered
      rw [hw, hc]
    by_cases hissues : x.Issues e
    · have hitem : (e.crossed x.netDelivered).item.injector = e.item.injector := rfl
      rw [Arm.passEntry_issues hx hissues, Arm.passEntry_issues hy ((h.issues_iff e).2 hissues), hnet,
        Arm.issueShot_getElem? hx hitem, Arm.issueShot_getElem? hy hitem, (hj _).2.1]
    · rw [Arm.passEntry_sets hx (hn e hx) hissues, Arm.passEntry_sets hy (hn e hx) (mt (h.issues_iff e).1 hissues), hnet,
        hstate, Arm.setEntry_getElem? hx, Arm.setEntry_getElem? hy]

/-- The pass of an entry neither reads nor changes the phase, the set-points and the Ratio Controller. -/
theorem Arm.passEntry_withControl (h : x.NoTimeoutAt k) (phase : Phase) (wildSet : Nat) (ratio : RatioCtl) :
    (x.withControl phase wildSet ratio).passEntry k = (x.passEntry k).withControl phase wildSet ratio := by
  cases hk : x.entries[k]? with
  | none => rw [Arm.passEntry_of_absent hk, Arm.passEntry_of_absent (by exact hk)]
  | some e =>
    by_cases hissues : x.Issues e
    · rw [Arm.passEntry_issues hk hissues, Arm.passEntry_issues (x := x.withControl phase wildSet ratio) hk hissues]
      rfl
    · rw [Arm.passEntry_sets hk (h e hk) hissues,
        Arm.passEntry_sets (x := x.withControl phase wildSet ratio) hk (h e hk) hissues]
      rfl

end

/-- The passes of some entries: each takes its own pass. -/
theorem Arm.foldl_passEntry {l : List Nat} (hl : l.Nodup) {x : Arm} (h : ∀ k ∈ l, x.NoTimeoutAt k) :
    x.OnlyShots (l.foldl Arm.passEntry x) ∧
    (∀ k, k ∉ l → (l.foldl Arm.passEntry x).entries[k]? = x.entries[k]?) ∧
    ∀ k ∈ l, (l.foldl Arm.passEntry x).entries[k]? = (x.passEntry k).entries[k]? := by
  induction l generalizing x with
  | nil => exact ⟨.refl x, fun _ _ => rfl, nofun⟩
  | cons i l ih =>
    obtain ⟨hi, hnodup⟩ := List.nodup_cons.1 hl
    have hfirst := h i List.mem_cons_self
    have hkept : ∀ k, i ≠ k → (x.passEntry i).entries[k]? = x.entries[k]? := fun k hk =>
      Arm.passEntry_getElem?_ne hfirst hk
    have hne : ∀ k ∈ l, i ≠ k := fun k hk he => hi (he ▸ hk)
    obtain ⟨honly, hothers, hpassed⟩ := ih hnodup (x := x.passEntry i) fun k hk e he =>
      h k (List.mem_cons_of_mem _ hk) e (by rw [← hkept k (hne k hk)]; exact he)
    refine ⟨(Arm.passEntry_onlyShots hfirst).trans honly, fun k hk => ?_, fun k hk => ?_⟩
    · rw [List.mem_cons, not_or] at hk
      exact (hothers k hk.2).trans (hkept k (Ne.symm hk.1))
    · rcases List.mem_cons.1 hk with rfl | hk
      · exact hothers k hi
      · exact (hpassed k hk).trans ((Arm.passEntry_onlyShots hfirst).passEntry_getElem?
          (h k (List.mem_cons_of_mem _ hk)) (hkept k (hne k hk)))

/-- No shot of the arm reaches its timeout. -/
def Arm.NoTimeout (x : Arm) : Prop := ∀ k, x.NoTimeoutAt k

theorem Arm.noTimeout_of_entries {x : Arm} (h : ∀ e ∈ x.entries, e.NoTimeout) : x.NoTimeout :=
  fun _ e he => h e (List.mem_of_getElem? he)

/-- The Additive Scheduler's pass: each entry takes its own pass (R120). -/
theorem Arm.additivePass_passes {x : Arm} (h : x.NoTimeout) :
    x.OnlyShots x.additivePass ∧ ∀ k, x.additivePass.entries[k]? = (x.passEntry k).entries[k]? := by
  obtain ⟨honly, hothers, hpassed⟩ := Arm.foldl_passEntry (List.nodup_range (n := x.entries.length)) (x := x) fun k _ => h k
  refine ⟨honly, fun k => ?_⟩
  by_cases hk : k ∈ List.range x.entries.length
  · exact hpassed k hk
  · have hnone : x.entries[k]? = none := List.getElem?_eq_none (Nat.not_lt.1 (mt List.mem_range.2 hk))
    rw [Arm.passEntry_of_absent hnone]
    exact hothers k hk

theorem Arm.additivePass_withControl {x : Arm} (h : x.NoTimeout) (phase : Phase) (wildSet : Nat) (ratio : RatioCtl) :
    (x.withControl phase wildSet ratio).additivePass = x.additivePass.withControl phase wildSet ratio := by
  have hfold : ∀ (l : List Nat) (y : Arm), l.Nodup → (∀ k ∈ l, y.NoTimeoutAt k) →
      l.foldl Arm.passEntry (y.withControl phase wildSet ratio) =
        (l.foldl Arm.passEntry y).withControl phase wildSet ratio := by
    intro l
    induction l with
    | nil => exact fun _ _ _ => rfl
    | cons i l ih =>
      intro y hl hy
      obtain ⟨hi, hnodup⟩ := List.nodup_cons.1 hl
      have hfirst := hy i List.mem_cons_self
      rw [List.foldl_cons, List.foldl_cons, Arm.passEntry_withControl hfirst]
      refine ih _ hnodup fun k hk e he => hy k (List.mem_cons_of_mem _ hk) e ?_
      rw [← Arm.passEntry_getElem?_ne hfirst fun hik => hi (hik ▸ hk)]
      exact he
  exact hfold _ x List.nodup_range fun k _ => h k

end Sys2Proof.Machine
end

section
/-! PROOFS. Settling: the completed record of a batch, and the arm that settles, resumes or leaks, alone and at an arm frame
closed event (R90, R91, R98, R99, R136). -/

namespace Sys2Proof.Machine

/-! ## The completed record -/

/-- The arm with the end of its batch replaced: end reason, secondary causes and sense (R97, R98). -/
def Arm.withEnd (x : Arm) (reason : EndCause) (secondary : List EndCause) (sense : Sense) : Arm :=
  { x with endReason := some reason, secondary := secondary, sense := sense }

/-- An additive entry closed at finalize (R130). -/
theorem AdditiveEntry.closed_closedAs (e : AdditiveEntry) (n : Nat) : e.ClosedAs n (e.closed n) := by
  unfold AdditiveEntry.closed AdditiveEntry.missOutstanding
  cases hshot : e.shot with
  | none => exact ⟨rfl, rfl, rfl, rfl, rfl, rfl, (if_pos hshot).symm, rfl⟩
  | some sh => exact ⟨rfl, rfl, rfl, rfl, rfl, rfl, (if_neg (by rw [hshot]; nofun)).symm, rfl⟩

theorem Arm.delivered_of_ctx {x : Arm} {c : Context} (hctx : x.ctx = some c) : x.delivered =
    if c.netBasis then x.wild.net + x.ctrl.net else x.wild.gross + x.ctrl.gross := by
  unfold Arm.delivered
  rw [hctx]

theorem Arm.remaining_of_ctx {x : Arm} {c : Context} (hctx : x.ctx = some c) : x.remaining = c.presetMl - x.delivered := by
  unfold Arm.remaining
  rw [hctx]

/-- The ratio status of a finalized batch (R115). -/
theorem Arm.ratioStatus_of_ctx {x : Arm} {c : Context} (hctx : x.ctx = some c) : x.ratioStatus =
    let n := x.wild.net + x.ctrl.net
    let ethanol := if c.recipe.ethanolControlled then x.ctrl.net else x.wild.net
    if x.ratio.mode = .ratio ∧ c.recipe.checkVolume * 1000 ≤ n ∧ 0 < n then
      if c.recipe.band < Int.natAbs (((ethanol * 10000 / n : Nat) : Int) - c.recipe.fraction) then .outOfBand else .inBand
    else .notChecked := by
  extract_lets n ethanol
  unfold Arm.ratioStatus
  rw [hctx, Arm.actualFraction_of_ctx hctx]
  cases hmode : x.ratio.mode
  case ratio =>
    dsimp only
    by_cases hchecked : c.recipe.checkVolume * 1000 ≤ n ∧ 0 < n
    · rw [if_neg (show ¬ x.netDelivered < _ from Nat.not_lt.2 hchecked.1),
        if_neg (show ¬ x.wild.net + x.ctrl.net = 0 from hchecked.2.ne')]
      refine Eq.trans ?_ (if_pos (And.intro rfl hchecked)).symm
      simp only [outsideBand, decide_eq_true_iff]
      rfl
    · rw [if_neg fun h : _ ∧ _ => hchecked h.2]
      by_cases hvolume : x.netDelivered < c.recipe.checkVolume * 1000
      · exact if_pos hvolume
      · have hzero : x.wild.net + x.ctrl.net = 0 :=
          Nat.eq_zero_of_not_pos fun h => hchecked ⟨Nat.not_lt.1 hvolume, h⟩
        rw [if_neg hvolume, if_pos hzero]
  all_goals rfl

/-- A finalized batch, with the end that it is given (R99, R130, R135, R136, R137). -/
theorem Arm.finalizedAs_withEnd {x : Arm} {c : Context} {r : CurrentRecord} (hctx : x.ctx = some c)
    (hcurrent : x.current = some r) (a : Fin 8) (frame : Nat) (reason : EndCause) (secondary : List EndCause)
    (sense : Sense) :
    x.FinalizedAs ((x.withEnd reason secondary sense).finalized a c r frame) a c frame reason secondary ∧
    ((x.withEnd reason secondary sense).finalized a c r frame).sense = sense := by
  refine ⟨⟨rfl, rfl, rfl, rfl, rfl, rfl, rfl, rfl, rfl, ?_, ?_⟩, rfl⟩
  · have hring : ∀ b : Prop, [Decidable b] → (b ↔ reason = .normal ∧ secondary = []) →
        (if b then pushRing x.ring (clampNat (x.delivered - x.deliveredAtClose) 0 c.settings.closeAheadMax) else x.ring) =
        if reason = .normal ∧ secondary = [] then (x.ring ++ [min (x.delivered - x.deliveredAtClose)
          c.settings.closeAheadMax]).drop (x.ring.length + 1 - 4) else x.ring := fun b _ hb => by
      simp only [hb, pushRing, clampNat_zero]
    rw [← Arm.delivered_of_ctx hctx]
    exact hring _ (and_congr_left' Option.some_inj)
  · refine ⟨r, x.wild.avgTemp, x.ctrl.avgTemp, x.entries.map (fun e => e.closed x.netDelivered), hcurrent,
      x.wild.avgTemp_averages, x.ctrl.avgTemp_averages, List.length_map _, fun k e hk => ?_, ?_⟩
    · exact ⟨_, by rw [List.getElem?_map, hk]; rfl, e.closed_closedAs _⟩
    · rw [← Arm.delivered_of_ctx hctx, ← Arm.remaining_of_ctx hctx, ← Arm.ratioStatus_of_ctx hctx,
        ← Arm.actualFraction_of_ctx hctx]
      rfl

/-! ## Settled, and leaking -/

/-- The arm with its zero count and its settle age replaced (R90, R98). -/
def Arm.settling (x : Arm) (count age : Nat) : Arm := { x with zeroCount := count, settleAge := age }

/-- A batch that has not settled in time is finalized (R98). -/
def Arm.LeaksAs (x y : Arm) (a : Fin 8) (c : Context) (frame : Nat) (reason : EndCause) : Prop :=
  y.state = .faulted ∧
  (if reason = .normal ∧ x.secondary = []
   then x.FinalizedAs y a c frame .valveLeak [] ∧ y.sense = .valveLeak
   else if reason = .valveLeak ∨ EndCause.valveLeak ∈ x.secondary
   then x.FinalizedAs y a c frame reason x.secondary ∧ y.sense = x.sense
   else x.FinalizedAs y a c frame reason (x.secondary ++ [.valveLeak]) ∧ y.sense = .valveLeak)

theorem Arm.withEnd_self {x : Arm} {reason : EndCause} (h : x.endReason = some reason) :
    x.withEnd reason x.secondary x.sense = x := by
  unfold Arm.withEnd
  rw [← h]

/-- A batch finalized with its end as it stands. -/
theorem Arm.finalized_finalizedAs {x : Arm} {c : Context} {r : CurrentRecord} {reason : EndCause} (hctx : x.ctx = some c)
    (hcurrent : x.current = some r) (hreason : x.endReason = some reason) (a : Fin 8) (frame : Nat) :
    x.FinalizedAs (x.finalized a c r frame) a c frame reason x.secondary ∧ (x.finalized a c r frame).sense = x.sense := by
  have := Arm.finalizedAs_withEnd hctx hcurrent a frame reason x.secondary x.sense
  rwa [Arm.withEnd_self hreason] at this

theorem Arm.finalized_leaksAs {x : Arm} {c : Context} {r : CurrentRecord} {reason : EndCause} (hctx : x.ctx = some c)
    (hcurrent : x.current = some r) (hreason : x.endReason = some reason) (a : Fin 8) (frame : Nat) :
    x.LeaksAs (x.recordLeak.finalized a c r frame) a c frame reason := by
  have hend := fun reason secondary sense => Arm.finalizedAs_withEnd hctx hcurrent a frame reason secondary sense
  unfold Arm.LeaksAs Arm.recordLeak
  by_cases hnormal : reason = .normal ∧ x.secondary = []
  · obtain ⟨rfl, hnone⟩ := hnormal
    rw [if_pos ⟨hreason, hnone⟩, if_pos ⟨rfl, hnone⟩]
    have hleak : { x with endReason := some EndCause.valveLeak, sense := .valveLeak } =
        x.withEnd .valveLeak [] .valveLeak := by
      unfold Arm.withEnd
      rw [← hnone]
    rw [hleak]
    exact ⟨rfl, hend _ _ _⟩
  · rw [if_neg (by rw [hreason, Option.some_inj]; exact hnormal), if_neg hnormal]
    unfold Arm.addSecondary
    by_cases honce : reason = .valveLeak ∨ EndCause.valveLeak ∈ x.secondary
    · rw [if_pos (by rw [hreason, Option.some_inj]; exact honce), if_pos honce]
      refine ⟨?_, Arm.finalized_finalizedAs hctx hcurrent hreason a frame⟩
      show (if ((x.endReason.map EndCause.latching).getD false || x.secondary.any EndCause.latching) = true
        then ArmState.faulted else .idle) = .faulted
      rw [hreason]
      refine if_pos ?_
      rcases honce with rfl | hmem
      · rfl
      · exact Bool.or_eq_true_iff.2 (.inr (List.any_eq_true.2 ⟨_, hmem, rfl⟩))
    · rw [if_neg (by rw [hreason, Option.some_inj]; exact honce), if_neg honce]
      have hleak : ({ x with secondary := x.secondary ++ [.valveLeak] } : Arm).note EndCause.valveLeak.sense =
          x.withEnd reason (x.secondary ++ [.valveLeak]) .valveLeak := by
        unfold Arm.withEnd
        rw [← hreason]
        rfl
      rw [if_pos (show EndCause.valveLeak.latching = true from rfl), hleak]
      refine ⟨?_, hend _ _ _⟩
      exact if_pos (Bool.or_eq_true_iff.2 (.inr (List.any_eq_true.2 ⟨EndCause.valveLeak,
        List.mem_append_right _ List.mem_cons_self, rfl⟩)))

/-- Finalize: the arm finalized, a save asked for, and nothing else changed (R99, R143). -/
theorem State.finalize_closes {u : State} {a : Fin 8} {c : Context} {r : CurrentRecord} (hctx : (u.arm a).ctx = some c)
    (hcurrent : (u.arm a).current = some r) :
    (u.finalize a).arm a = (u.arm a).finalized a c r u.trunk.frameCounter ∧
    u.finalize a = { u with arms := (u.finalize a).arms, store := (u.finalize a).store } ∧ (u.finalize a).SavePending a := by
  have heq : u.finalize a = (u.modArm a (fun x => x.finalized a c r u.trunk.frameCounter)).requestSave a := by
    unfold State.finalize
    rw [hctx, hcurrent]
  rw [heq]
  exact u.modArm_requestSave a _

/-- A HOLDING arm that settles enters HELD, and RUNNING when the resume conditions hold (R90, R91). -/
theorem State.settle_holding {u : State} {a : Fin 8} (h : (u.arm a).state = .holding) :
    u.settle a = u.modArm a (fun x =>
      if u.mayResume a then Arm.resumed { x with state := .held } else { x with state := .held }) := by
  unfold State.settle State.tryResume
  rw [h]
  dsimp only
  by_cases hresume : u.mayResume a = true
  · rw [if_pos (by rw [State.arm_modArm_self]; exact ⟨rfl, hresume⟩), State.modArm_modArm]
    simp only [hresume, if_true]
  · rw [if_neg fun hn => hresume hn.2]
    simp only [hresume]
    rfl

theorem State.settle_closing {u : State} {a : Fin 8} (h : (u.arm a).state = .closing) : u.settle a = u.finalize a := by
  unfold State.settle
  rw [h]

theorem State.mayResume_iff {u : State} {a : Fin 8} : u.mayResume a = true ↔
    u.rack.levels[a].hold = false ∧ u.rack.levels[a].runPermit = true ∧ u.lines.permit[a] = true ∧ u.lines.estop = false := by
  unfold State.mayResume
  simp only [Bool.and_eq_true, Bool.not_eq_true', and_assoc]

/-- The phase of an arm that resumes (R91). -/
theorem Arm.resumed_eq {x : Arm} {c : Context} (hctx : x.ctx = some c) : x.resumed = { x with
    state := .running, wildSet := 0, ratio := { x.ratio with ctrlSet := 0 },
    phase := if x.remaining ≤ c.settings.topOff * 1000 then .topOff else .startLow } := by
  unfold Arm.resumed
  rw [hctx]
  rfl

/-! ## The arm frame closed event of a HOLDING or CLOSING arm -/

section
variable {v : State} {a : Fin 8}

/-- The Arm Controller of a HOLDING arm that settles (R90, R91). -/
theorem State.armAct_holding_settles (h : (v.arm a).state = .holding) (hdue : v.holdDue a = false)
    (hzero : 20 ≤ v.zeroAfter a) : (v.armAct a).arm a =
      let held := { v.arm a with holdTimer := (v.arm a).holdTimer + 1, zeroCount := v.zeroAfter a, state := .held }
      if v.mayResume a then held.resumed else held := by
  have hreached : v.settleReached a = true := decide_eq_true hzero
  have hcounted : (v.modArm a Arm.holdTick).storeZero a =
      v.modArm a (fun x => { x.holdTick with zeroCount := v.zeroAfter a }) := by
    rw [State.storeZero, State.modArm_modArm, State.zeroAfter_congr (fun q => v.modArm_meter a _ a q)
      ((congrArg Arm.zeroCount (v.arm_modArm_self a Arm.holdTick)).trans rfl)]
  rw [State.armAct_holding h, State.holdingStep, if_neg (by rw [hdue]; nofun), if_pos hreached, hcounted,
    State.settle_holding (by rw [State.arm_modArm_self]; exact h), State.modArm_modArm, State.arm_modArm_self]
  rfl

/-- The Arm Controller of a CLOSING arm that settles: the batch is finalized (R98). -/
theorem State.armAct_closing_settles (h : (v.arm a).state = .closing) (hzero : 20 ≤ v.zeroAfter a) :
    v.armAct a = (v.storeZero a).finalize a := by
  have hreached : v.settleReached a = true := decide_eq_true hzero
  rw [State.armAct_closing h, State.closingStep, if_pos hreached, State.settle_closing]
  rw [State.storeZero, State.arm_modArm_self]
  exact h

/-- The Arm Controller of a CLOSING arm at the settle limit (R98). -/
theorem State.armAct_closing_leaks (h : (v.arm a).state = .closing) (hzero : v.zeroAfter a < 20)
    (hdue : v.settleDue a = true) : v.armAct a = (v.storeZero a).settleExpire a := by
  have hreached : v.settleReached a = false := decide_eq_false (Nat.not_le.2 hzero)
  rw [State.armAct_closing h, State.closingStep, if_neg (by rw [hreached]; nofun), if_pos hdue]

/-- The Arm Controller of a CLOSING arm that goes on (R98). -/
theorem State.armAct_closing_waits (h : (v.arm a).state = .closing) (hzero : v.zeroAfter a < 20)
    (hdue : v.settleDue a = false) :
    v.armAct a = v.modArm a (fun x => x.settling (v.zeroAfter a) (x.settleAge + 1)) := by
  have hreached : v.settleReached a = false := decide_eq_false (Nat.not_le.2 hzero)
  rw [State.armAct_closing h, State.closingStep, if_neg (by rw [hreached]; nofun), if_neg (by rw [hdue]; nofun),
    State.storeZero, State.modArm_modArm]
  rfl

end

/-- A finalized arm is at rest. -/
theorem Arm.finalized_atRest (x : Arm) (a : Fin 8) (c : Context) (r : CurrentRecord) (frame : Nat) :
    (x.finalized a c r frame).AtRest := by
  refine ⟨?_, nofun, nofun⟩
  show x.finalState ≠ .running
  unfold Arm.finalState
  split <;> nofun

/-- A batch that settles is finalized with its causes as they stand (R98, R99). -/
theorem State.settles_finalize {u : State} {a : Fin 8} {x : Arm} {c : Context} {r : CurrentRecord} {reason : EndCause}
    {count age : Nat} (harm : u.arm a = x.settling count age) (hctx : x.ctx = some c) (hcurrent : x.current = some r)
    (hreason : x.endReason = some reason) :
    let t := u.finalize a
    (x.FinalizedAs (t.arm a) a c u.trunk.frameCounter reason x.secondary ∧ (t.arm a).sense = x.sense) ∧ (t.arm a).AtRest ∧
    t = { u with arms := t.arms, store := t.store } ∧ t.SavePending a := by
  intro t
  obtain ⟨hfinal, hkeeps, hsave⟩ := State.finalize_closes (u := u) (a := a) (c := c) (r := r) (by rw [harm]; exact hctx)
    (by rw [harm]; exact hcurrent)
  refine ⟨?_, ?_, hkeeps, hsave⟩
  · rw [show t.arm a = _ from hfinal, harm]
    exact Arm.finalized_finalizedAs (x := x.settling count age) hctx hcurrent hreason a _
  · rw [show t.arm a = _ from hfinal]
    exact Arm.finalized_atRest _ a c r _

/-- A batch that has not settled in time is finalized with VALVE_LEAK (R98, R99). -/
theorem State.settleExpire_leaks {u : State} {a : Fin 8} {x : Arm} {c : Context} {r : CurrentRecord} {reason : EndCause}
    {count age : Nat} (harm : u.arm a = x.settling count age) (hctx : x.ctx = some c) (hcurrent : x.current = some r)
    (hreason : x.endReason = some reason) :
    let t := u.settleExpire a
    x.LeaksAs (t.arm a) a c u.trunk.frameCounter reason ∧ (t.arm a).AtRest ∧
    t = { u with arms := t.arms, store := t.store } ∧ t.SavePending a := by
  intro t
  have hleak : (u.modArm a (fun x => ({ x with settleAge := x.settleAge + 1 } : Arm).recordLeak)).arm a =
      (x.settling count (age + 1)).recordLeak := by
    rw [State.arm_modArm_self, harm]
    rfl
  have hkept : ∀ y : Arm, y.recordLeak.ctx = y.ctx ∧ y.recordLeak.current = y.current := fun y => by
    unfold Arm.recordLeak Arm.addSecondary
    split_ifs <;> exact ⟨rfl, rfl⟩
  obtain ⟨hctx', hcurrent'⟩ := hkept (x.settling count (age + 1))
  obtain ⟨hfinal, hkeeps, hsave⟩ := State.finalize_closes (u :=
    u.modArm a (fun x => ({ x with settleAge := x.settleAge + 1 } : Arm).recordLeak)) (a := a) (c := c) (r := r)
    (by rw [hleak, hctx']; exact hctx) (by rw [hleak, hcurrent']; exact hcurrent)
  refine ⟨?_, ?_, ?_, hsave⟩
  · rw [show t.arm a = _ from hfinal, hleak]
    exact Arm.finalized_leaksAs (x := x.settling count (age + 1)) hctx hcurrent hreason a _
  · rw [show t.arm a = _ from hfinal]
    exact Arm.finalized_atRest _ a c r _
  · exact hkeeps

/-! ## The statement -/

/-- A HOLDING arm at an arm frame closed event (R90, R91). -/
theorem State.ClosesAs.holding {s v : State} {a : Fin 8} {x : Arm} {z : Nat} {c : Context} {order : List Block}
    (hv : s.ClosesAs a x z v) (horder : order ∈ blockOrders) (hctx : x.ctx = some c) (hstraight : x.StraightWithin)
    (hshot : ∀ e ∈ x.entries, e.shot = none) (hstate : x.state = .holding)
    (hlimit : x.holdTimer + 1 < s.config.holdLimitS * 1000 / s.config.periodMs) :
    let t := v.runBlocks a order
    let go := s.rack.levels[a].hold = false ∧ s.rack.levels[a].runPermit = true ∧ s.lines.permit[a] = true ∧
      s.lines.estop = false
    let counted : Arm := { x with holdTimer := x.holdTimer + 1, zeroCount := z }
    (z < 20 → t.arm a = counted) ∧ (20 ≤ z → ¬ go → t.arm a = { counted with state := .held }) ∧
    (20 ≤ z → go → t.arm a = { counted with
      state := .running, wildSet := 0, ratio := { x.ratio with ctrlSet := 0 },
      phase := if x.remaining ≤ c.settings.topOff * 1000 then .topOff else .startLow,
      entries := (t.arm a).entries, injectors := (t.arm a).injectors }) := by
  intro t go counted
  have hrest : (v.arm a).AtRest := by
    rw [hv.arm]
    exact ⟨by rw [hstate]; nofun, hstraight, hshot⟩
  have hdue : v.holdDue a = false := Bool.eq_false_iff.2 (mt hv.holdDue.1 (Nat.not_le.2 hlimit))
  have hresume : v.mayResume a = true ↔ go := by
    rw [State.mayResume_iff, hv.inFrame.side.rack, hv.inFrame.side.lines]
  have hcounts := State.armAct_holding_counts (v := v) (a := a) (by rw [hv.arm, hstate]) hdue
  have hsettles := State.armAct_holding_settles (v := v) (a := a) (by rw [hv.arm, hstate]) hdue
  rw [hv.arm, hv.zero] at hcounts hsettles
  refine ⟨fun hz => ?_, fun hz hno => ?_, fun hz hgo => ?_⟩
  · rw [show t = _ from State.runBlocks_of_rest_kept horder hrest (by
      rw [hcounts hz]; exact ⟨by rw [hstate]; nofun, hstraight, hshot⟩), hcounts hz]
  · have harm := hsettles hz
    rw [if_neg (mt hresume.1 hno)] at harm
    rw [show t = _ from State.runBlocks_of_rest_kept horder hrest (by
      rw [harm]; exact ⟨nofun, hstraight, hshot⟩), harm]
  · have harm := hsettles hz
    rw [if_pos (hresume.2 hgo)] at harm
    replace harm := harm.trans (Arm.resumed_eq (x := { counted with state := .held }) (c := c) hctx)
    generalize hw : v.armAct a = w at harm
    have hpassed := (Arm.additivePass_passes (x := w.arm a) (Arm.noTimeout_of_entries fun e he sh hsh => by
      rw [harm] at he
      rw [hshot e he] at hsh
      cases hsh)).1.1
    have hidle : ∀ y : Arm, y.ratio = (w.arm a).ratio → y.ctrl = (w.arm a).ctrl → ∀ q, y.ratioAct false q = y :=
      fun y hratio hctrl q => by
        refine Arm.ratioAct_of_not_received (fun hmode => ?_) (fun _ => ?_) q
        · rw [hctrl, harm]
          rw [hratio, harm] at hmode
          exact hstraight hmode
        · rw [hratio, harm]
    rcases State.runBlocks_of_rest horder hrest (by rw [hw]; exact hidle _ rfl rfl)
      (by rw [hw]; exact hidle _ (congrArg Arm.ratio hpassed :) (congrArg Arm.ctrl hpassed :)) with h | h
    · rw [show t = w from h.trans hw, harm]
      rfl
    · have ht : t.arm a = (w.arm a).additivePass := by
        rw [show t = _ from h, hw, State.arm_modArm_self]
      rw [ht]
      exact hpassed.trans (by rw [harm]; rfl)

/-- A CLOSING arm at an arm frame closed event (R98). -/
theorem State.ClosesAs.closing {s v : State} {a : Fin 8} {x : Arm} {z : Nat} {c : Context} {r : CurrentRecord}
    {reason : EndCause} {order : List Block} (hv : s.ClosesAs a x z v) (horder : order ∈ blockOrders)
    (hctx : x.ctx = some c) (hstraight : x.StraightWithin) (hshot : ∀ e ∈ x.entries, e.shot = none)
    (hstate : x.state = .closing) (hcurrent : x.current = some r) (hreason : x.endReason = some reason) :
    let t := v.runBlocks a order
    (20 ≤ z → x.FinalizedAs (t.arm a) a c s.trunk.frameCounter reason x.secondary ∧
      (t.arm a).sense = x.sense ∧ t.SavePending a) ∧
    (z < 20 → x.settleAge + 1 < s.config.settleLimit →
      t.arm a = { x with zeroCount := z, settleAge := x.settleAge + 1 }) ∧
    (z < 20 → s.config.settleLimit ≤ x.settleAge + 1 →
      x.LeaksAs (t.arm a) a c s.trunk.frameCounter reason ∧ t.SavePending a) := by
  intro t
  have hrest : (v.arm a).AtRest := by
    rw [hv.arm]
    exact ⟨by rw [hstate]; nofun, hstraight, hshot⟩
  have hvstate : (v.arm a).state = .closing := by rw [hv.arm, hstate]
  have hstored : (v.storeZero a).arm a = x.settling z x.settleAge := by
    rw [State.storeZero, State.arm_modArm_self, hv.arm, hv.zero]
    rfl
  have hdue : v.settleDue a = true ↔ s.config.settleLimit ≤ x.settleAge + 1 := by
    unfold State.settleDue
    rw [decide_eq_true_iff, hv.arm, hv.inFrame.config]
  have hframe : (v.storeZero a).trunk.frameCounter = s.trunk.frameCounter := hv.inFrame.frame
  refine ⟨fun hz => ?_, fun hz hwaits => ?_, fun hz hlimit => ?_⟩
  · have hact := State.armAct_closing_settles hvstate (by rw [hv.zero]; exact hz)
    obtain ⟨⟨hfinal, hsense⟩, hatRest, -, hsave⟩ := State.settles_finalize hstored hctx hcurrent hreason
    rw [show t = _ from State.runBlocks_of_rest_kept horder hrest (by rw [hact]; exact hatRest), hact, ← hframe]
    exact ⟨hfinal, hsense, hsave⟩
  · have hact := State.armAct_closing_waits hvstate (by rw [hv.zero]; exact hz)
      (Bool.eq_false_iff.2 (mt hdue.1 (Nat.not_le.2 hwaits)))
    have harm : (v.armAct a).arm a = x.settling z (x.settleAge + 1) := by
      rw [hact, State.arm_modArm_self, hv.arm, hv.zero]
    rw [show t = _ from State.runBlocks_of_rest_kept horder hrest (by
      rw [harm]; exact ⟨by rw [show (x.settling z (x.settleAge + 1)).state = _ from hstate]; nofun, hstraight, hshot⟩), harm]
    rfl
  · have hact := State.armAct_closing_leaks hvstate (by rw [hv.zero]; exact hz) (hdue.2 hlimit)
    obtain ⟨hleaks, hatRest, -, hsave⟩ := State.settleExpire_leaks hstored hctx hcurrent hreason
    rw [show t = _ from State.runBlocks_of_rest_kept horder hrest (by rw [hact]; exact hatRest), hact, ← hframe]
    exact ⟨hleaks, hsave⟩

/-- The zero count of an arm whose frame is not settled (R90). -/
theorem zeroNext_lt {wild ctrl : Option Nat} {count : Nat} (h : wild = none ∨ ctrl = none → count < 20)
    (h' : wild = some 0 → ctrl = some 0 → count < 19) : zeroNext wild ctrl count < 20 := by
  cases wild with
  | none => exact h (.inl rfl)
  | some w =>
    cases ctrl with
    | none => exact h (.inr rfl)
    | some c =>
      unfold zeroNext
      dsimp only
      split_ifs with hzero
      · obtain ⟨rfl, rfl⟩ := hzero
        have := h' rfl rfl
        rw [satSucc_eq_min]
        omega
      · decide

/-- The increment set of a sample leaves the batch context of its arm (R78). -/
theorem State.FrameCloses.keepsCtx {s : State} {i : Fin 64} {a : Fin 8} {p : StreamPos} {w : List Byte} {x : Arm} {z : Nat}
    (h : s.FrameCloses i a p w x z) : x.ctx = (s.arm a).ctx := by
  rcases h with ⟨-, -, -, rfl, -⟩ | ⟨⟨-, -, -, -, -, -, -, -, -, u, v, -, hroutes, -⟩, -⟩
  · rfl
  · rw [show x = _ from hroutes]
    cases p <;> dsimp only <;> split_ifs <;> rfl

/-- Settles O44: the commands by `State.settle_holding`, `State.settles_finalize` and `State.settleExpire_leaks`, which the
arm frame closed event uses too. -/
theorem settlingFinalizes : Obligations.SettlingFinalizes := by
  intro s a c hpow hctx
  refine ⟨fun hwild hctrl hcount => ?_, fun r reason hstate hcurrent hreason hlimit wild ctrl hwild hctrl hsome hzero => ?_,
    fun i p w x z hcloses hstraight hshot => ?_⟩
  · have hzero : s.zeroAfter a = 20 := by
      unfold State.zeroAfter zeroNext
      rw [hwild, hctrl]
      simp only [and_self, if_true, satSucc_eq_min]
      exact Nat.min_eq_left (by change 20 ≤ _; omega)
    have hexec : (s.arm a).state = .holding ∨ (s.arm a).state = .closing →
        exec (.armSettled a) s = .next ((s.storeZero a).settle a) := fun hstate =>
      congrArg Host.Outcome.next ((if_pos hpow).trans (if_pos ⟨hstate, decide_eq_true (by rw [hzero]; decide)⟩))
    have hstored : (s.storeZero a).arm a = (s.arm a).settling 20 (s.arm a).settleAge := by
      rw [State.storeZero, State.arm_modArm_self, hzero]
      rfl
    refine ⟨fun hstate => ?_, fun r reason hstate hcurrent hreason => ?_⟩
    · have hsettle := State.settle_holding (u := s.storeZero a) (a := a) (by rw [hstored]; exact hstate)
      have hresume := State.mayResume_iff (u := s.storeZero a) (a := a)
      rw [hexec (.inl hstate), hsettle, State.storeZero, State.modArm_modArm, hzero]
      refine ⟨fun hgo => ?_, fun hno => ?_⟩
      · refine congrArg (fun y => Host.Outcome.next (s.setArm a y)) ((if_pos (hresume.2 hgo)).trans ?_)
        rw [Arm.resumed_eq (c := c) (by exact hctx)]
        rfl
      · exact congrArg (fun y => Host.Outcome.next (s.setArm a y)) (if_neg (mt hresume.1 hno))
    · rw [hexec (.inr hstate), State.settle_closing (by rw [hstored]; exact hstate)]
      obtain ⟨⟨hfinal, hsense⟩, -, hkeeps, hsave⟩ := State.settles_finalize hstored hctx hcurrent hreason
      refine ⟨_, rfl, hfinal, hsense, hsave, fun b hb => ?_, hkeeps⟩
      exact ((OneBatch.finalize _).arms b hb).trans (s.arm_modArm_ne _ hb.symm)
  · have hreached : s.settleReached a = false := decide_eq_false (Nat.not_le.2 (by
      unfold State.zeroAfter
      rw [hwild, hctrl]
      exact zeroNext_lt hsome hzero))
    have hexec : exec (.settleLimit a) s = .next (s.settleExpire a) :=
      congrArg Host.Outcome.next ((if_pos hpow).trans (if_pos ⟨hstate, hreached, decide_eq_true hlimit⟩))
    obtain ⟨hleaks, -, hkeeps, hsave⟩ := State.settleExpire_leaks (u := s) (a := a) (x := s.arm a) rfl hctx hcurrent hreason
    exact ⟨_, hexec, hleaks, hsave, (OneBatch.settleExpire s).arms, hkeeps⟩
  · by_cases hopen : x.isOpen = true
    · obtain ⟨v, order, horder, hexec, hv⟩ := hcloses.runs hopen
      have hxctx : x.ctx = some c := by rw [hcloses.keepsCtx, hctx]
      exact ⟨_, hexec, fun b hb => ((OneBatch.foldl _ (OneBatch.runBlock _) order v).arms b hb).trans (hv.arms b hb),
        fun hstate hlimit => hv.holding horder hxctx hstraight hshot hstate hlimit,
        fun r reason hstate hcurrent hreason => hv.closing horder hxctx hstraight hshot hstate hcurrent hreason⟩
    · have hno : ∀ st : ArmState, x.state = st → st.isOpen = true → False := fun st hst h => hopen (by rw [Arm.isOpen, hst, h])
      obtain ⟨v, hexec, hv⟩ := hcloses.exec
      exact ⟨_, hexec, fun b hb => ((OneBatch.armFrameClosed v).arms b hb).trans (hv.arms b hb),
        fun hstate => (hno _ hstate rfl).elim, fun r reason hstate => (hno _ hstate rfl).elim⟩

end Sys2Proof.Machine
end

section
/-! PROOFS. The three blocks of an arm in any order (R77, R95), and a shot that times out, alone and at an arm frame closed
event (R125, R126). -/

namespace Sys2Proof.Machine

/-! ## The blocks in any order -/

/-- What each block adds to a property of the arm, told by the blocks that have acted, holds of it once all three have
acted. A block may use that the state is within the event: no other arm, no meter and no side of the field has changed. -/
theorem State.runBlocks_reaches {v : State} {a : Fin 8} {order : List Block} (horder : order ∈ blockOrders)
    {P : Bool → Bool → Bool → Arm → Prop}
    (hstart : P false false false (v.arm a))
    (hcontroller : ∀ u ratio pass, OneBatch a v u → FieldSide v u → P false ratio pass (u.arm a) →
      P true ratio pass ((u.armAct a).arm a))
    (hratio : ∀ x controller pass, P controller false pass x →
      P controller true pass (x.ratioAct ((v.arm a).state == .running) (v.meter a .wild).flow))
    (hpass : ∀ x controller ratio, P controller ratio false x → P controller ratio true x.additivePass) :
    P true true true ((v.runBlocks a order).arm a) := by
  let Q : Bool → Bool → Bool → State → Prop := fun controller ratio pass u =>
    OneBatch a v u ∧ FieldSide v u ∧ P controller ratio pass (u.arm a)
  have hkept : ∀ u b, OneBatch a v u → FieldSide v u →
      OneBatch a v (State.runBlock a (v.arm a).state u b) ∧ FieldSide v (State.runBlock a (v.arm a).state u b) :=
    fun u b hbatch hfield => ⟨hbatch.trans (.runBlock _ u b), hfield.trans (.runBlock a _ u b)⟩
  have hA : ∀ {u ratio pass}, Q false ratio pass u → Q true ratio pass (State.runBlock a (v.arm a).state u .armController) :=
    fun {u ratio pass} ⟨hbatch, hfield, hP⟩ =>
      have ⟨hbatch', hfield'⟩ := hkept u .armController hbatch hfield
      ⟨hbatch', hfield', hcontroller u ratio pass hbatch hfield hP⟩
  have hR : ∀ {u controller pass}, Q controller false pass u →
      Q controller true pass (State.runBlock a (v.arm a).state u .ratioController) :=
    fun {u controller pass} ⟨hbatch, hfield, hP⟩ => by
      obtain ⟨hbatch', hfield'⟩ := hkept u .ratioController hbatch hfield
      refine ⟨hbatch', hfield', ?_⟩
      have hflow : u.meter a .wild = v.meter a .wild := congrArg (fun m : Vector _ 8 => m[a].wild) hbatch.meters
      rw [State.runBlock, State.arm_modArm_self, hflow]
      exact hratio _ _ _ hP
  have hS : ∀ {u controller ratio}, Q controller ratio false u →
      Q controller ratio true (State.runBlock a (v.arm a).state u .additiveScheduler) :=
    fun {u controller ratio} ⟨hbatch, hfield, hP⟩ => by
      obtain ⟨hbatch', hfield'⟩ := hkept u .additiveScheduler hbatch hfield
      refine ⟨hbatch', hfield', ?_⟩
      rw [State.runBlock, State.arm_modArm_self]
      exact hpass _ _ _ hP
  have h0 : Q false false false v := ⟨.refl v, .refl v, hstart⟩
  simp only [blockOrders, List.mem_cons, List.not_mem_nil, or_false] at horder
  rcases horder with rfl | rfl | rfl | rfl | rfl | rfl
  · exact (hS (hR (hA h0))).2.2
  · exact (hR (hS (hA h0))).2.2
  · exact (hS (hA (hR h0))).2.2
  · exact (hA (hS (hR h0))).2.2
  · exact (hR (hA (hS h0))).2.2
  · exact (hA (hR (hS h0))).2.2

/-- A batch that has just closed goes on closing at the same arm frame closed event (R98). -/
theorem State.armAct_closed {v u : State} {a : Fin 8} (hfield : FieldSide v u) (hstate : (u.arm a).state = .closing)
    (hcount : (u.arm a).zeroCount = 0) (hage : (u.arm a).settleAge = 0) (hlimit : 1 < v.config.settleLimit) :
    ∃ count, (u.armAct a).arm a = (u.arm a).settling count 1 := by
  have hzero : u.zeroAfter a < 20 := by
    unfold State.zeroAfter
    rw [hcount]
    exact zeroNext_lt (fun _ => by decide) (fun _ _ => by decide)
  have hdue : u.settleDue a = false := by
    refine decide_eq_false (Nat.not_le.2 ?_)
    rw [hage, State.config, hfield.tables]
    exact hlimit
  refine ⟨u.zeroAfter a, ?_⟩
  rw [State.armAct_closing_waits hstate hzero hdue, State.arm_modArm_self, hage]

/-! ## A shot that times out -/

section
variable {x : Arm} {k : Nat} {e : AdditiveEntry} {sh : Shot}

/-- A shot at its timeout ends MISSED (R125). -/
theorem Arm.ageShot_of_timeout (hk : x.entries[k]? = some e) (hshot : e.shot = some sh) (hage : 99 ≤ sh.age) :
    x.ageShot k = x.endShot k e .missed 0 := by
  unfold Arm.ageShot
  rw [hk]
  dsimp only
  rw [hshot]
  exact if_pos (show 100 ≤ sh.age + 1 by omega)

/-- The entry with its shot missed (R125, R126). -/
def AdditiveEntry.missedShot (e : AdditiveEntry) : AdditiveEntry :=
  { e with shot := none, missed := if e.missed < 65535 then e.missed + 1 else 65535, bad := e.bad + 1 }

theorem AdditiveEntry.ended_missed (e : AdditiveEntry) : e.ended .missed 0 = e.missedShot := rfl

/-- The arm with an entry failed (R126). -/
def Arm.withFailed (x : Arm) (k : Nat) (e : AdditiveEntry) : Arm := x.setEntry k { e.missedShot with state := .failed }

theorem Arm.ageShot_few (hk : x.entries[k]? = some e) (hshot : e.shot = some sh) (hage : 99 ≤ sh.age) (hbad : e.bad < 2) :
    x.ageShot k = x.setEntry k e.missedShot := by
  rw [Arm.ageShot_of_timeout hk hshot hage, Arm.endShot_of_kept (by omega) (.inr hbad), AdditiveEntry.ended_missed]

theorem Arm.ageShot_continue (hk : x.entries[k]? = some e) (hshot : e.shot = some sh) (hage : 99 ≤ sh.age)
    (hbad : e.bad = 2) (hstate : e.state ≠ .failed) (hstop : e.item.stop = false) :
    x.ageShot k = { x.withFailed k e with additiveFault := true } := by
  rw [Arm.ageShot_of_timeout hk hshot hage, Arm.endShot_of_failing_continue (by decide) hbad hstate hstop,
    AdditiveEntry.ended_missed]
  rfl

theorem Arm.ageShot_stop (hk : x.entries[k]? = some e) (hshot : e.shot = some sh) (hage : 99 ≤ sh.age)
    (hbad : e.bad = 2) (hstate : e.state ≠ .failed) (hstop : e.item.stop = true) :
    x.ageShot k = (x.withFailed k e).raiseCause .additiveFail := by
  rw [Arm.ageShot_of_timeout hk hshot hage, Arm.endShot_of_failing_stop (by decide) hbad hstate hstop,
    AdditiveEntry.ended_missed]
  rfl

/-- No entry but `k` has a shot. -/
def Arm.ShotOnlyAt (x : Arm) (k : Nat) : Prop := ∀ j e, x.entries[j]? = some e → j ≠ k → e.shot = none

theorem Arm.ageShot_elsewhere (h : x.ShotOnlyAt k) {j : Nat} (hj : j ≠ k) : x.ageShot j = x := by
  cases he : x.entries[j]? with
  | none =>
    unfold Arm.ageShot
    rw [he]
  | some e => exact Arm.ageShot_of_none he (h j e he hj)

/-- The pass of an arm outside RUNNING, of whose entries one has a shot, ages that shot (R120). -/
theorem Arm.additivePass_of_only (hk : x.entries[k]? = some e) (honly : x.ShotOnlyAt k) (hstate : x.state ≠ .running)
    (honly' : (x.ageShot k).ShotOnlyAt k) (hstate' : (x.ageShot k).state ≠ .running) : x.additivePass = x.ageShot k := by
  have hpass : x.passEntry k = x.ageShot k := if_neg hstate'
  unfold Arm.additivePass
  rw [foldl_eq_of_only List.nodup_range (List.mem_range.2 (List.getElem?_eq_some_iff.1 hk).1) (fun j hj => ?_)
    (fun j hj => ?_), hpass]
  · unfold Arm.passEntry
    dsimp only
    rw [Arm.ageShot_elsewhere honly hj, if_neg hstate]
  · rw [hpass]
    unfold Arm.passEntry
    dsimp only
    rw [Arm.ageShot_elsewhere honly' hj, if_neg hstate']

theorem Arm.shotOnlyAt_setEntry (h : x.ShotOnlyAt k) (e' : AdditiveEntry) : (x.setEntry k e').ShotOnlyAt k := by
  intro j f hf hj
  rw [Arm.setEntry, List.getElem?_set_ne (Ne.symm hj)] at hf
  exact h j f hf hj

theorem Arm.shotOnlyAt_raiseCause (h : x.ShotOnlyAt k) {c : EndCause} (hc : c ≠ .normal) : (x.raiseCause c).ShotOnlyAt k := by
  intro j f hf hj
  rcases x.raiseCause_entries hc with hentries | hentries <;> rw [hentries] at hf
  · exact h j f hf hj
  · rw [List.getElem?_map, Option.map_eq_some_iff] at hf
    obtain ⟨f', hf', rfl⟩ := hf
    exact (AdditiveEntry.dropped_shot f').trans (h j f' hf' hj)

end

/-- The increment set of a sample leaves the entries of its arm (R78). -/
theorem State.FrameCloses.keepsEntries {s : State} {i : Fin 64} {a : Fin 8} {p : StreamPos} {w : List Byte} {x : Arm}
    {z : Nat} (h : s.FrameCloses i a p w x z) : x.entries = (s.arm a).entries := by
  rcases h with ⟨-, -, -, rfl, -⟩ | ⟨⟨-, -, -, -, -, -, -, -, -, u, v, -, hroutes, -⟩, -⟩
  · rfl
  · rw [show x = _ from hroutes]
    cases p <;> dsimp only <;> split_ifs <;> rfl

/-! ## A HELD arm at an arm frame closed event -/

/-- A HELD arm with its hold timer, its entries and its additive fault replaced. -/
def Arm.heldWith (x : Arm) (timer : Nat) (entries : List AdditiveEntry) (fault : Bool) : Arm :=
  { x with holdTimer := timer, entries := entries, additiveFault := fault }

/-- The Arm Controller of a HELD arm below the hold limit (R92). -/
theorem State.armAct_held_waits {s v u : State} {a : Fin 8} {x : Arm} {z : Nat} (hv : s.ClosesAs a x z v)
    (hfield : FieldSide v u) (hstate : (u.arm a).state = .held) (htimer : (u.arm a).holdTimer = x.holdTimer)
    (hlimit : x.holdTimer + 1 < s.config.holdLimitS * 1000 / s.config.periodMs) :
    (u.armAct a).arm a = (u.arm a).holdTick := by
  have hdue : u.holdDue a = false := by
    refine decide_eq_false ?_
    rw [htimer, State.config, hfield.tables]
    exact fun h => Nat.not_le.2 hlimit (by rw [← hv.inFrame.config]; exact h)
  rw [State.armAct_held hstate, State.heldStep, if_neg (by rw [hdue]; nofun), State.arm_modArm_self]

/-- A HELD arm stays HELD where its pass changes its entries alone (R92, R126). -/
theorem State.ClosesAs.held_waits {s v : State} {a : Fin 8} {x : Arm} {z : Nat} {order : List Block}
    (hv : s.ClosesAs a x z v) (horder : order ∈ blockOrders) (hstraight : x.StraightWithin) (hstate : x.state = .held)
    (hlimit : x.holdTimer + 1 < s.config.holdLimitS * 1000 / s.config.periodMs) {entries : List AdditiveEntry} {fault : Bool}
    (hpass : ∀ n, (x.heldWith n x.entries x.additiveFault).additivePass = x.heldWith n entries fault) :
    (v.runBlocks a order).arm a = x.heldWith (x.holdTimer + 1) entries fault := by
  refine State.runBlocks_reaches horder (P := fun controller _ pass y => y =
    x.heldWith (if controller then x.holdTimer + 1 else x.holdTimer) (if pass then entries else x.entries)
      (if pass then fault else x.additiveFault)) hv.arm (fun u _ pass _ hfield h => ?_) (fun y controller pass h => ?_)
    (fun y controller _ h => ?_)
  · rw [State.armAct_held_waits hv hfield (by rw [h]; exact hstate) (by rw [h]; rfl) hlimit, h]
    rfl
  · rw [show ((v.arm a).state == .running) = false by rw [hv.arm, hstate]; rfl]
    rw [Arm.ratioAct_of_not_received _ _, h]
    · rw [h]
      exact hstraight
    · rw [h]
      exact fun hrunning => absurd (hstate.symm.trans hrunning) (by decide)
  · rw [h]
    exact hpass _

/-- What a failed STOP entry leaves of a HELD arm (R126, R96). -/
structure Arm.StoppedBy (x : Arm) (k : Nat) (e : AdditiveEntry) (y : Arm) : Prop where
  state : y.state = .closing
  endReason : y.endReason = some .additiveFail
  sense : y.sense = .additiveFail
  secondary : y.secondary = x.secondary
  entry : y.entries[k]? = some { e.missedShot with state := .failed }
  straight : y.StraightWithin

/-- A HELD arm is closed where its pass fails an entry under STOP (R126). -/
theorem State.ClosesAs.held_stops {s v : State} {a : Fin 8} {x : Arm} {z : Nat} {order : List Block} {k : Nat}
    {e : AdditiveEntry} (hv : s.ClosesAs a x z v) (horder : order ∈ blockOrders) (hstraight : x.StraightWithin)
    (hstate : x.state = .held) (hlimit : x.holdTimer + 1 < s.config.holdLimitS * 1000 / s.config.periodMs)
    (hsettle : 1 < s.config.settleLimit)
    (hpass : ∀ n, x.StoppedBy k e (x.heldWith n x.entries x.additiveFault).additivePass ∧
      (x.heldWith n x.entries x.additiveFault).additivePass.zeroCount = 0 ∧
      (x.heldWith n x.entries x.additiveFault).additivePass.settleAge = 0) :
    x.StoppedBy k e ((v.runBlocks a order).arm a) := by
  refine (State.runBlocks_reaches horder (P := fun controller _ pass y =>
    if pass then x.StoppedBy k e y ∧ (controller = false → y.zeroCount = 0 ∧ y.settleAge = 0)
    else y = x.heldWith (if controller then x.holdTimer + 1 else x.holdTimer) x.entries x.additiveFault)
    hv.arm (fun u _ pass _ hfield h => ?_) (fun y controller pass h => ?_) (fun y controller _ h => ?_)).1
  · cases pass
    · rw [State.armAct_held_waits hv hfield (by rw [h]; exact hstate) (by rw [h]; rfl) hlimit, h]
      rfl
    · obtain ⟨hstopped, hzero⟩ := h
      obtain ⟨hcount, hage⟩ := hzero rfl
      obtain ⟨count, hact⟩ := State.armAct_closed hfield hstopped.state hcount hage (by rw [hv.inFrame.config]; exact hsettle)
      rw [hact]
      exact ⟨⟨hstopped.state, hstopped.endReason, hstopped.sense, hstopped.secondary, hstopped.entry, hstopped.straight⟩, nofun⟩
  · have hidle : y.ratioAct ((v.arm a).state == .running) (v.meter a .wild).flow = y := by
      rw [show ((v.arm a).state == .running) = false by rw [hv.arm, hstate]; rfl]
      cases pass
      · refine Arm.ratioAct_of_not_received ?_ ?_ _ <;> rw [h]
        · exact hstraight
        · exact fun hrunning => absurd (hstate.symm.trans hrunning) (by decide)
      · exact Arm.ratioAct_of_not_received h.1.straight
          (fun hrunning => absurd (h.1.state.symm.trans hrunning) (by decide)) _
    rw [hidle]
    exact h
  · rw [h]
    obtain ⟨hstopped, hzero⟩ := hpass (if controller then x.holdTimer + 1 else x.holdTimer)
    exact ⟨hstopped, fun _ => hzero⟩

/-! ## The statement -/

/-- Settles O46: the shot's end by `Arm.ageShot_few`, `Arm.ageShot_continue` and `Arm.ageShot_stop`, at an arm frame closed
event in any order of the blocks. -/
theorem shotTimesOut : Obligations.ShotTimesOut := by
  intro s a k e sh hpow hk hshot hage e1 failed
  have hexec : exec (.shotTimeout a k) s = .next (s.setArm a ((s.arm a).ageShot k.val)) := by
    refine congrArg Host.Outcome.next ((if_pos hpow).trans (if_pos ?_))
    unfold Arm.shotDue
    rw [hk]
    dsimp only
    rw [hshot]
    exact decide_eq_true (show 100 ≤ sh.age + 1 by omega)
  refine ⟨fun hbad => ?_, fun hbad hstate hstop => ?_, fun hbad hstate hstop => ?_,
    fun i p w x z hcloses hstraight hheld hlimit honly => ?_⟩
  · rw [hexec, Arm.ageShot_few hk hshot hage hbad]
    rfl
  · rw [hexec, Arm.ageShot_continue hk hshot hage hbad hstate hstop]
    rfl
  · refine ⟨_, hexec, by rw [State.arm_setArm_self], ?_⟩
    rw [State.arm_setArm_self, Arm.ageShot_stop hk hshot hage hbad hstate hstop]
    exact ⟨Arm.takes_raiseCause _ _, Arm.raiseCause_getElem?_failed (by decide) (Arm.setEntry_getElem? hk _) rfl⟩
  · obtain ⟨v, order, horder, hexec', hv⟩ := hcloses.runs (by rw [Arm.isOpen, hheld]; rfl)
    have hkx : x.entries[k.val]? = some e := by rw [hcloses.keepsEntries, hk]
    have hpass : ∀ n, (x.heldWith n x.entries x.additiveFault).state ≠ .running := fun _ => by
      show x.state ≠ .running
      rw [hheld]
      nofun
    have hkx' : ∀ n, (x.heldWith n x.entries x.additiveFault).entries[k.val]? = some e := fun _ => hkx
    have honly' : ∀ n, (x.heldWith n x.entries x.additiveFault).ShotOnlyAt k.val := fun _ => honly
    refine ⟨_, hexec', fun b hb => ((OneBatch.foldl _ (OneBatch.runBlock _) order v).arms b hb).trans (hv.arms b hb),
      fun hbad => ?_, fun hbad hstate hstop => ?_, fun hbad hstate hstop hsettle => ?_⟩
    · refine hv.held_waits horder hstraight hheld hlimit (entries := x.entries.set k.val e.missedShot)
        (fault := x.additiveFault) fun n => ?_
      have hend := Arm.ageShot_few (x := x.heldWith n x.entries x.additiveFault) hkx hshot hage hbad
      exact (Arm.additivePass_of_only (hkx' n) (honly' n) (hpass n)
        (by rw [hend]; exact Arm.shotOnlyAt_setEntry (honly' n) _) (by rw [hend]; exact hpass n)).trans hend
    · refine hv.held_waits horder hstraight hheld hlimit
        (entries := x.entries.set k.val { e.missedShot with state := .failed }) (fault := true) fun n => ?_
      have hend := Arm.ageShot_continue (x := x.heldWith n x.entries x.additiveFault) hkx hshot hage hbad hstate hstop
      exact (Arm.additivePass_of_only (hkx' n) (honly' n) (hpass n)
        (by rw [hend]; exact Arm.shotOnlyAt_setEntry (honly' n) _) (by rw [hend]; exact hpass n)).trans hend
    · have hstopped : x.StoppedBy k.val e ((v.runBlocks a order).arm a) := by
        refine hv.held_stops horder hstraight hheld hlimit hsettle fun n => ?_
        have hend := Arm.ageShot_stop (x := x.heldWith n x.entries x.additiveFault) hkx hshot hage hbad hstate hstop
        have hflows : ((x.heldWith n x.entries x.additiveFault).withFailed k.val e).state.flowing := .inr (.inr hheld)
        obtain ⟨hclosing, hreason, -, -, -, -, hcount, hsettled, -, hsense, -, -, -, -, -, -, hsecondary, -⟩ :=
          (Arm.takes_raiseCause _ .additiveFail).1 hflows
        rw [Arm.additivePass_of_only (hkx' n) (honly' n) (hpass n)
          (by rw [hend]; exact Arm.shotOnlyAt_raiseCause (Arm.shotOnlyAt_setEntry (honly' n) _) (by decide))
          (by rw [hend, hclosing]; nofun), hend]
        exact ⟨⟨hclosing, hreason, hsense, hsecondary,
          Arm.raiseCause_getElem?_failed (by decide) (Arm.setEntry_getElem? (by exact hkx) _) rfl,
          Arm.raiseCause_straight hflows (by exact hstraight) _⟩, hcount, hsettled⟩
      exact ⟨hstopped.state, hstopped.endReason, hstopped.sense, hstopped.secondary, hstopped.entry⟩

end Sys2Proof.Machine
end

section
/-! PROOFS. A RUNNING arm at an arm frame closed event: the Arm Controller's step, the Ratio Controller's pass, and the three
blocks in any order (R87, R88, R95, R105 to R113). -/

namespace Sys2Proof.Machine

/-! ## The Arm Controller's step -/

section
variable {x : Arm} {c : Context}

/-- The phase after the evaluation (R87). -/
theorem Arm.nextPhase_eq (x : Arm) (c : Context) (hphase : x.phase ≠ .none) : x.nextPhase c =
    if x.remaining ≤ c.settings.topOff * 1000 then Phase.topOff
    else if x.phase = .startLow ∧ c.settings.lowStart * 1000 ≤ x.delivered then .high
    else x.phase := by
  unfold Arm.nextPhase
  cases h : x.phase
  case none => exact absurd h hphase
  case topOff => exact (ite_self _).symm
  all_goals simp

/-- The wild target and whether the cap is operative (R88). -/
theorem Context.wildTarget_eq (c : Context) (p : Phase) :
    let rate := if p = .high then c.settings.highRate else c.settings.lowRate
    let cap := c.settings.ctrlMax * (10000 - c.recipe.ctrlFraction) / c.recipe.ctrlFraction
    c.wildTarget p = (if c.recipe.ctrlFraction = 0 then min rate c.settings.wildMax
      else min (min rate c.settings.wildMax) cap) ∧
    c.capOperative p = decide (c.recipe.ctrlFraction ≠ 0 ∧ cap < rate ∧ cap < c.settings.wildMax) := by
  intro rate cap
  unfold Context.wildTarget Context.capOperative
  by_cases h : c.recipe.ctrlFraction = 0
  · have hcap : c.wildCap = none := if_pos h
    rw [hcap]
    exact ⟨(if_pos h).symm, (decide_eq_false fun hn => hn.1 h).symm⟩
  · have hcap : c.wildCap = some cap := if_neg h
    rw [hcap]
    refine ⟨(if_neg h).symm, ?_⟩
    simp only [ne_eq, h, not_false_eq_true, true_and, Bool.decide_and]
    rfl

/-- A RUNNING arm in its top-off within the close-ahead ends NORMAL (R87). -/
theorem Arm.runningStep_closes (hstate : x.state = .running) (hctx : x.ctx = some c)
    (hclose : x.nextPhase c = .topOff ∧ x.remaining ≤ c.closeAhead) :
    x.runningStep = (x.withControl (x.nextPhase c) x.wildSet x.ratio).raiseCause .normal := by
  have hraise : (x.withControl (x.nextPhase c) x.wildSet x.ratio).raiseCause .normal =
      (x.withControl (x.nextPhase c) x.wildSet x.ratio).enterClosing .normal :=
    Arm.raiseCause_flowing _ _ (.inl hstate)
  have hevaluate : x.evaluatePhase c = (x.withControl (x.nextPhase c) x.wildSet x.ratio).enterClosing .normal :=
    if_pos hclose
  have hclosed : (x.evaluatePhase c).state ≠ .running := by
    rw [hevaluate, ← hraise, ((Arm.takes_raiseCause (x.withControl (x.nextPhase c) x.wildSet x.ratio) .normal).1
      (.inl hstate)).1]
    nofun
  unfold Arm.runningStep
  rw [hctx]
  dsimp only
  rw [if_neg hclosed, hevaluate, hraise]

/-- A RUNNING arm that goes on (R87, R88). -/
theorem Arm.runningStep_goes (hstate : x.state = .running) (hctx : x.ctx = some c)
    (hclose : ¬ (x.nextPhase c = .topOff ∧ x.remaining ≤ c.closeAhead)) :
    x.runningStep = x.withControl (x.nextPhase c)
      (rampToward x.wildSet (c.wildTarget (x.nextPhase c)) c.settings.rampLimit)
      { x.ratio with limited := c.capOperative (x.nextPhase c) } := by
  have hevaluate : x.evaluatePhase c = x.withControl (x.nextPhase c) x.wildSet x.ratio := if_neg hclose
  unfold Arm.runningStep
  rw [hctx]
  dsimp only
  rw [hevaluate, if_pos (by exact hstate)]
  rfl

end

/-! ## The Ratio Controller's pass -/

section
variable {x : Arm} {c : Context}

/-- The Ratio Controller after a pass of a RUNNING arm that raises nothing (R105 to R112). -/
def Arm.ratioNext (x : Arm) (c : Context) (qW : Nat) : RatioCtl :=
  match x.ratio.mode with
  | .ratio => { (x.ratioSetpoint c qW).ratio with outCount := x.bandCount c }
  | .straight => { x.ratio with ctrlSet := 0 }
  | .none => x.ratio

theorem Arm.ratioNext_ratio (h : x.ratio.mode = .ratio) {qW : Nat} :
    x.ratioNext c qW = { (x.ratioSetpoint c qW).ratio with outCount := x.bandCount c } := by
  unfold Arm.ratioNext
  rw [h]

theorem Arm.ratioNext_straight (h : x.ratio.mode = .straight) {qW : Nat} :
    x.ratioNext c qW = { x.ratio with ctrlSet := 0 } := by
  unfold Arm.ratioNext
  rw [h]

theorem Arm.ratioNext_none (h : x.ratio.mode = .none) {qW : Nat} : x.ratioNext c qW = x.ratio := by
  unfold Arm.ratioNext
  rw [h]

/-- A straight load is above its limit (R111). -/
def Arm.Floods (x : Arm) : Prop := x.ratio.mode = .straight ∧ 2000 < x.ctrl.net

/-- A band check reaches the persistence (R112, R113). -/
def Arm.Fails (x : Arm) (c : Context) : Prop :=
  x.ratio.mode = .ratio ∧ x.bandChecked c = true ∧ c.recipe.persistence ≤ x.bandCount c

theorem Arm.ratioAct_goes (hstate : x.state = .running) (hctx : x.ctx = some c) (hflood : ¬ x.Floods)
    (hfail : ¬ x.Fails c) (qW : Nat) : x.ratioAct true qW = { x with ratio := x.ratioNext c qW } := by
  unfold Arm.ratioNext
  cases hmode : x.ratio.mode
  case none =>
    unfold Arm.ratioAct
    rw [hmode]
  case ratio =>
    have hact : x.ratioAct true qW = (x.ratioSetpoint c qW).bandCheck c := by
      unfold Arm.ratioAct
      rw [hmode, hctx]
      exact if_pos ⟨rfl, hstate⟩
    rw [hact, Arm.bandCheck_passes (x := x.ratioSetpoint c qW) fun h => hfail ⟨hmode, h⟩]
    rfl
  case straight =>
    have hact : x.ratioAct true qW = x.straightWatch := by
      unfold Arm.ratioAct
      rw [hmode]
    rw [hact, Arm.straightWatch, if_pos hstate]
    exact if_neg fun h => hflood ⟨hmode, h.2⟩

theorem Arm.ratioAct_floods (hstate : x.state = .running) (hflood : x.Floods) (qW : Nat) :
    x.ratioAct true qW = (x.withControl x.phase x.wildSet { x.ratio with ctrlSet := 0 }).raiseCause .uncommandedFlow := by
  unfold Arm.ratioAct
  rw [hflood.1]
  cases x.ctx <;>
  · dsimp only
    unfold Arm.straightWatch
    rw [if_pos hstate]
    exact if_pos ⟨ArmState.watched_iff.2 (.inl (.inl hstate)), hflood.2⟩

theorem Arm.ratioAct_fails (hstate : x.state = .running) (hctx : x.ctx = some c) (hfail : x.Fails c) (qW : Nat) :
    x.ratioAct true qW = (x.withControl x.phase x.wildSet
      { (x.ratioSetpoint c qW).ratio with outCount := x.bandCount c }).raiseCause .ratioFault := by
  unfold Arm.ratioAct
  rw [hfail.1, hctx]
  dsimp only
  rw [if_pos ⟨rfl, hstate⟩, Arm.bandCheck_fails (x := x.ratioSetpoint c qW) hfail.2]
  rfl

/-- A closed batch below the limit of a straight load is left by the Ratio Controller (R111, R114). -/
theorem Arm.ratioAct_closed (hstate : x.state = .closing) (hflood : ¬ x.Floods) (qW : Nat) : x.ratioAct true qW = x := by
  have hrunning : x.state ≠ .running := by rw [hstate]; nofun
  unfold Arm.ratioAct
  split
  · exact if_neg fun h => hrunning h.2
  · next hmode =>
    unfold Arm.straightWatch
    rw [if_neg hrunning]
    exact if_neg fun h => hflood ⟨hmode, h.2⟩
  · rfl

end

/-! ## The arm between the blocks -/

/-- A RUNNING arm with a batch whose shots do not time out at the event. -/
structure Arm.Runs (x : Arm) (c : Context) : Prop where
  state : x.state = .running
  ctx : x.ctx = some c
  noTimeout : x.NoTimeout

/-- A RUNNING arm after the blocks that have acted, where none of them ends the batch. -/
def Arm.between (x : Arm) (c : Context) (qW : Nat) (controller ratio pass : Bool) : Arm :=
  (if pass then x.additivePass else x).withControl (if controller then x.runningStep.phase else x.phase)
    (if controller then x.runningStep.wildSet else x.wildSet)
    { (if ratio then x.ratioNext c qW else x.ratio) with
      limited := if controller then x.runningStep.ratio.limited else x.ratio.limited }

section
variable {x : Arm} {c : Context} {qW : Nat}

theorem Arm.withControl_withControl (y : Arm) (phase phase' : Phase) (wildSet wildSet' : Nat) (ratio ratio' : RatioCtl) :
    (y.withControl phase wildSet ratio).withControl phase' wildSet' ratio' = y.withControl phase' wildSet' ratio' := rfl

/-- The scheduler's part of the arm between the blocks. -/
theorem Arm.Runs.passed_eq (h : x.Runs c) (pass : Bool) : ∃ entries injectors,
    (if pass then x.additivePass else x) = x.withShots entries injectors ∧ (pass = false → entries = x.entries) := by
  cases pass
  · exact ⟨x.entries, x.injectors, rfl, fun _ => rfl⟩
  · exact ⟨_, _, (Arm.additivePass_passes h.noTimeout).1.1, nofun⟩

/-- The Ratio Controller's pass does not read what the other blocks change. -/
theorem Arm.ratioNext_withControl (entries : List AdditiveEntry) (injectors : Vector Injector 4) (phase : Phase)
    (wildSet : Nat) (limited : Bool) :
    ((x.withShots entries injectors).withControl phase wildSet { x.ratio with limited := limited }).ratioNext c qW =
      { x.ratioNext c qW with limited := limited } := by
  cases h : x.ratio.mode
  · rw [Arm.ratioNext_none h, Arm.ratioNext_none (by exact h)]
    rfl
  · rw [Arm.ratioNext_ratio h, Arm.ratioNext_ratio (by exact h)]
    rfl
  · rw [Arm.ratioNext_straight h, Arm.ratioNext_straight (by exact h)]
    rfl

theorem Arm.Runs.controller_goes (h : x.Runs c)
    (hclose : ¬ (x.nextPhase c = .topOff ∧ x.remaining ≤ c.closeAhead)) (ratio pass : Bool) :
    (x.between c qW false ratio pass).runningStep = x.between c qW true ratio pass := by
  obtain ⟨entries, injectors, hpassed, -⟩ := h.passed_eq pass
  unfold Arm.between
  rw [hpassed, Arm.runningStep_goes (c := c) (by exact h.state) (by exact h.ctx) (by exact hclose),
    Arm.runningStep_goes h.state h.ctx hclose]
  rfl

theorem Arm.Runs.ratio_goes (h : x.Runs c) (hflood : ¬ x.Floods) (hfail : ¬ x.Fails c) (controller pass : Bool) :
    (x.between c qW controller false pass).ratioAct true qW = x.between c qW controller true pass := by
  obtain ⟨entries, injectors, hpassed, -⟩ := h.passed_eq pass
  unfold Arm.between
  rw [hpassed, Arm.ratioAct_goes (c := c) (by exact h.state) (by exact h.ctx) (by exact hflood) (by exact hfail)]
  have hnext := Arm.ratioNext_withControl (x := x) (c := c) (qW := qW) entries injectors
    (if controller then x.runningStep.phase else x.phase) (if controller then x.runningStep.wildSet else x.wildSet)
    (if controller then x.runningStep.ratio.limited else x.ratio.limited)
  exact congrArg (fun r => Arm.withControl (x.withShots entries injectors) _ _ r) hnext

theorem Arm.Runs.pass_goes (h : x.Runs c) (controller ratio : Bool) :
    (x.between c qW controller ratio false).additivePass = x.between c qW controller ratio true :=
  Arm.additivePass_withControl h.noTimeout _ _ _

end

/-! ## A cause that ends the batch -/

theorem Arm.noTimeout_setEntry {y : Arm} (h : y.NoTimeout) (k : Nat) {e : AdditiveEntry} (he : e.NoTimeout) :
    (y.setEntry k e).NoTimeout := by
  intro j f hf
  unfold Arm.setEntry at hf
  dsimp only at hf
  rw [List.getElem?_set] at hf
  split_ifs at hf
  · cases hf
    exact he
  · exact h j f hf

/-- The close of the entries starts no shot that is about to time out (R128). -/
theorem Arm.closeEntries_noTimeout {y : Arm} (h : y.NoTimeout) (normal : Bool) : (y.closeEntries normal).NoTimeout := by
  have hdropped : ∀ e : AdditiveEntry, e.NoTimeout → e.dropped.NoTimeout := fun e he sh hsh =>
    he sh (by rw [← e.dropped_shot]; exact hsh)
  unfold Arm.closeEntries
  cases normal
  · intro k e he
    rw [if_neg (by decide)] at he
    obtain ⟨f, hf, rfl⟩ := Option.map_eq_some_iff.1 (List.getElem?_map.symm.trans he)
    exact hdropped f (h k f hf)
  · rw [if_pos rfl]
    generalize List.range y.entries.length = l
    induction l generalizing y with
    | nil => exact h
    | cons k l ih =>
      refine ih ?_
      cases hk : y.entries[k]? with
      | none => rwa [Arm.closeEntryNormal_of_none hk]
      | some e =>
        by_cases hfinal : y.FinalShot e
        · rw [Arm.closeEntryNormal_of_final hk hfinal]
          refine Arm.noTimeout_setEntry h k fun sh hsh => ?_
          cases hsh
          exact (by decide : 0 + 1 < 100)
        · rw [Arm.closeEntryNormal_of_not_final hk hfinal]
          exact Arm.noTimeout_setEntry h k (hdropped _ (h k e hk))

theorem Arm.raiseCause_noTimeout {y : Arm} (hflows : y.state.flowing) (h : y.NoTimeout) (cause : EndCause) :
    (y.raiseCause cause).NoTimeout := by
  obtain ⟨w, hentries, -, -, -, hclosed, -⟩ := y.enterClosing_closes cause
  intro k e he
  rw [Arm.raiseCause_flowing y cause hflows, hclosed] at he
  exact Arm.closeEntries_noTimeout (y := w) (fun j f hf => h j f (by rw [← hentries]; exact hf)) _ k e he

/-- What a cause that ends the batch of a RUNNING arm at the event leaves, told by whether the Arm Controller and the
scheduler have acted (R96). -/
structure Arm.ClosesBy (x : Arm) (cause : EndCause) (controller pass : Bool) (y : Arm) : Prop where
  state : y.state = .closing
  endReason : y.endReason = some cause
  secondary : y.secondary = x.secondary
  phase : y.phase = .none
  wildSet : y.wildSet = 0
  ctrlSet : y.ratio.ctrlSet = 0
  limited : y.ratio.limited = false
  delivered : y.deliveredAtClose = x.delivered
  sense : y.sense = if cause.latching then cause.sense else x.sense
  ctx : y.ctx = x.ctx
  wild : y.wild = x.wild
  ctrl : y.ctrl = x.ctrl
  mode : y.ratio.mode = x.ratio.mode
  zero : controller = false → y.zeroCount = 0 ∧ y.settleAge = 0
  shots : pass = false → y.NoTimeout

theorem Arm.closesBy_raiseCause {x : Arm} (hstate : x.state = .running) (entries : List AdditiveEntry)
    (injectors : Vector Injector 4) (phase : Phase) (wildSet : Nat) {ratio : RatioCtl} (hmode : ratio.mode = x.ratio.mode)
    (cause : EndCause) (controller : Bool) {pass : Bool} (hshots : pass = false → x.NoTimeout ∧ entries = x.entries) :
    x.ClosesBy cause controller pass
      (((x.withShots entries injectors).withControl phase wildSet ratio).raiseCause cause) := by
  have hflows : ((x.withShots entries injectors).withControl phase wildSet ratio).state.flowing := .inl hstate
  obtain ⟨h1, h2, h3, h4, h5, h6, h7, h8, h9, h10, h11, h12, h13, -, -, -, h17, -⟩ := (Arm.takes_raiseCause _ cause).1 hflows
  refine ⟨h1, h2, h17, h9, h3, h4, h5, h6, h10, h13, h11, h12, ?_, fun _ => ⟨h7, h8⟩, fun hpass => ?_⟩
  · rw [Arm.raiseCause_flowing _ _ hflows, Arm.enterClosing_ratio]
    exact hmode
  · obtain ⟨hno, rfl⟩ := hshots hpass
    exact Arm.raiseCause_noTimeout hflows hno cause

section
variable {x : Arm} {c : Context} {qW : Nat}

theorem Arm.Runs.controller_closes (h : x.Runs c) (hclose : x.nextPhase c = .topOff ∧ x.remaining ≤ c.closeAhead)
    (ratio pass : Bool) : x.ClosesBy .normal true pass (x.between c qW false ratio pass).runningStep := by
  obtain ⟨entries, injectors, hpassed, hentries⟩ := h.passed_eq pass
  unfold Arm.between
  rw [hpassed, Arm.runningStep_closes (c := c) (by exact h.state) (by exact h.ctx) (by exact hclose)]
  refine Arm.closesBy_raiseCause h.state entries injectors _ _ ?_ .normal true fun hpass => ⟨h.noTimeout, hentries hpass⟩
  cases ratio
  · rfl
  · show (x.ratioNext c qW).mode = x.ratio.mode
    unfold Arm.ratioNext
    split <;> rfl

theorem Arm.Runs.ratio_floods (h : x.Runs c) (hflood : x.Floods) (controller pass : Bool) :
    x.ClosesBy .uncommandedFlow controller pass ((x.between c qW controller false pass).ratioAct true qW) := by
  obtain ⟨entries, injectors, hpassed, hentries⟩ := h.passed_eq pass
  unfold Arm.between
  rw [hpassed, Arm.ratioAct_floods (by exact h.state) (by exact hflood), Arm.withControl_withControl]
  refine Arm.closesBy_raiseCause h.state entries injectors _ _ ?_ _ controller fun hpass => ⟨h.noTimeout, hentries hpass⟩
  rfl

theorem Arm.Runs.ratio_fails (h : x.Runs c) (hfail : x.Fails c) (controller pass : Bool) :
    x.ClosesBy .ratioFault controller pass ((x.between c qW controller false pass).ratioAct true qW) := by
  obtain ⟨entries, injectors, hpassed, hentries⟩ := h.passed_eq pass
  unfold Arm.between
  rw [hpassed, Arm.ratioAct_fails (c := c) (by exact h.state) (by exact h.ctx) (by exact hfail),
    Arm.withControl_withControl]
  refine Arm.closesBy_raiseCause h.state entries injectors _ _ ?_ _ controller fun hpass => ⟨h.noTimeout, hentries hpass⟩
  rfl

end

/-! ## The closed batch among the blocks -/

section
variable {x y : Arm} {cause : EndCause} {controller pass : Bool}

/-- The scheduler leaves the end of a closed batch. -/
theorem Arm.ClosesBy.passes (h : x.ClosesBy cause controller false y) : x.ClosesBy cause controller true y.additivePass := by
  obtain ⟨⟨hy, -⟩, -⟩ := Arm.additivePass_passes (h.shots rfl)
  rw [hy]
  exact ⟨h.state, h.endReason, h.secondary, h.phase, h.wildSet, h.ctrlSet, h.limited, h.delivered, h.sense, h.ctx, h.wild,
    h.ctrl, h.mode, h.zero, nofun⟩

/-- The settle age of a closed batch leaves its end. -/
theorem Arm.ClosesBy.settling (h : x.ClosesBy cause false pass y) (count age : Nat) :
    x.ClosesBy cause true pass (y.settling count age) :=
  ⟨h.state, h.endReason, h.secondary, h.phase, h.wildSet, h.ctrlSet, h.limited, h.delivered, h.sense, h.ctx, h.wild,
    h.ctrl, h.mode, nofun, h.shots⟩

/-- A closed batch below the limit of a straight load is left by the Ratio Controller. -/
theorem Arm.ClosesBy.ratio (h : x.ClosesBy cause controller pass y) (hflood : ¬ x.Floods) (qW : Nat) :
    y.ratioAct true qW = y :=
  Arm.ratioAct_closed h.state (fun hy => hflood ⟨by rw [← h.mode]; exact hy.1, by rw [← h.ctrl]; exact hy.2⟩) qW

end

section
variable {s v : State} {a : Fin 8} {x : Arm} {z : Nat} {c : Context} {order : List Block}

/-- Where nothing ends the batch all three blocks make their step, in any order. -/
theorem State.ClosesAs.running_goes (hv : s.ClosesAs a x z v) (horder : order ∈ blockOrders) (hx : x.Runs c)
    (hclose : ¬ (x.nextPhase c = .topOff ∧ x.remaining ≤ c.closeAhead)) (hflood : ¬ x.Floods) (hfail : ¬ x.Fails c) :
    (v.runBlocks a order).arm a = x.between c (v.meter a .wild).flow true true true := by
  refine State.runBlocks_reaches horder (P := fun controller ratio pass y =>
    y = x.between c (v.meter a .wild).flow controller ratio pass) hv.arm (fun u ratio pass _ _ h => ?_)
    (fun y controller pass h => ?_) (fun y controller ratio h => ?_)
  · have hrunning : (u.arm a).state = .running := by
      rw [h]
      obtain ⟨entries, injectors, hpassed, -⟩ := hx.passed_eq pass
      unfold Arm.between
      rw [hpassed]
      exact hx.state
    rw [State.armAct_running hrunning, State.arm_modArm_self, h]
    exact hx.controller_goes hclose ratio pass
  · rw [h, show ((v.arm a).state == .running) = true by rw [hv.arm, hx.state]; rfl]
    exact hx.ratio_goes hflood hfail controller pass
  · rw [h]
    exact hx.pass_goes controller ratio

/-- Where one block ends the batch and no other does, its cause is the end reason, in any order. -/
theorem State.ClosesAs.running_closes (hv : s.ClosesAs a x z v) (horder : order ∈ blockOrders) (hx : x.Runs c)
    (hsettle : 1 < s.config.settleLimit) {cause : EndCause}
    (h : (cause = .normal ∧ (x.nextPhase c = .topOff ∧ x.remaining ≤ c.closeAhead) ∧ ¬ x.Floods ∧ ¬ x.Fails c) ∨
      (¬ (x.nextPhase c = .topOff ∧ x.remaining ≤ c.closeAhead) ∧
        ((cause = .uncommandedFlow ∧ x.Floods) ∨ (cause = .ratioFault ∧ x.Fails c)))) :
    x.ClosesBy cause true true ((v.runBlocks a order).arm a) := by
  have hreceived : ((v.arm a).state == .running) = true := by rw [hv.arm, hx.state]; rfl
  have hrunning : ∀ u : State, ∀ ratio pass, u.arm a = x.between c (v.meter a .wild).flow false ratio pass →
      (u.armAct a).arm a = (x.between c (v.meter a .wild).flow false ratio pass).runningStep := fun u ratio pass hu => by
    obtain ⟨entries, injectors, hpassed, -⟩ := hx.passed_eq pass
    have hstate : (u.arm a).state = .running := by
      rw [hu]
      unfold Arm.between
      rw [hpassed]
      exact hx.state
    rw [State.armAct_running hstate, State.arm_modArm_self, hu]
  rcases h with ⟨rfl, hclose, hflood, hfail⟩ | ⟨hclose, hraises⟩
  · refine State.runBlocks_reaches horder (P := fun controller ratio pass y =>
      if controller then x.ClosesBy .normal true pass y
      else y = x.between c (v.meter a .wild).flow false ratio pass) hv.arm (fun u ratio pass _ _ h => ?_)
      (fun y controller pass h => ?_) (fun y controller ratio h => ?_)
    · rw [hrunning u ratio pass h]
      exact hx.controller_closes hclose ratio pass
    · rw [hreceived]
      cases controller
      · rw [h]
        exact hx.ratio_goes hflood hfail false pass
      · rw [Arm.ClosesBy.ratio h hflood]
        exact h
    · cases controller
      · rw [h]
        exact hx.pass_goes false ratio
      · exact Arm.ClosesBy.passes h
  · refine State.runBlocks_reaches horder (P := fun controller ratio pass y =>
      if ratio then x.ClosesBy cause controller pass y
      else y = x.between c (v.meter a .wild).flow controller false pass) hv.arm (fun u ratio pass _ hfield h => ?_)
      (fun y controller pass h => ?_) (fun y controller ratio h => ?_)
    · cases ratio
      · rw [hrunning u false pass h]
        exact hx.controller_goes hclose false pass
      · obtain ⟨hcount, hage⟩ := Arm.ClosesBy.zero h rfl
        obtain ⟨count, hact⟩ := State.armAct_closed hfield (Arm.ClosesBy.state h) hcount hage
          (by rw [hv.inFrame.config]; exact hsettle)
        rw [hact]
        exact Arm.ClosesBy.settling h count 1
    · rw [h, hreceived]
      rcases hraises with ⟨rfl, hflood⟩ | ⟨rfl, hfail⟩
      · exact hx.ratio_floods hflood controller pass
      · exact hx.ratio_fails hfail controller pass
    · cases ratio
      · rw [h]
        exact hx.pass_goes controller false
      · exact Arm.ClosesBy.passes h

end

/-! ## The statement -/

theorem Arm.closes_iff {x : Arm} {c : Context} (hphase : x.phase ≠ .none) :
    (x.nextPhase c = .topOff ∧ x.remaining ≤ c.closeAhead) ↔
      (x.phase = .topOff ∨ x.remaining ≤ c.settings.topOff * 1000) ∧ x.remaining ≤ c.closeAhead := by
  refine and_congr_left' ?_
  rw [Arm.nextPhase_eq x c hphase]
  by_cases hnear : x.remaining ≤ c.settings.topOff * 1000
  · rw [if_pos hnear]
    exact ⟨fun _ => .inr hnear, fun _ => rfl⟩
  · rw [if_neg hnear]
    by_cases hlow : x.phase = .startLow ∧ c.settings.lowStart * 1000 ≤ x.delivered
    · rw [if_pos hlow]
      simp [hlow.1, hnear]
    · rw [if_neg hlow]
      simp [hnear]

theorem Arm.fails_iff {x : Arm} {c : Context} (hctx : x.ctx = some c) : x.Fails c ↔
    (let n := x.wild.net + x.ctrl.net
     let ethanol := if c.recipe.ethanolControlled then x.ctrl.net else x.wild.net
     let outside := c.recipe.band < Int.natAbs (((ethanol * 10000 / n : Nat) : Int) - c.recipe.fraction)
     let count := if n = 0 then x.ratio.outCount else if outside then min 500 (x.ratio.outCount + 1) else 0
     x.ratio.mode = .ratio ∧ c.recipe.checkVolume * 1000 ≤ n ∧ c.recipe.persistence ≤ count) := by
  unfold Arm.Fails
  refine and_congr_right fun _ => ?_
  unfold Arm.bandChecked
  rw [decide_eq_true_iff]
  exact and_congr_right fun hchecked => by rw [Arm.bandCount_of_checked hctx hchecked]

/-- Settles O56: the step alone by `Arm.runningStep_closes` and `Arm.runningStep_goes`; at an arm frame closed event the three
blocks by `State.ClosesAs.running_goes` and `State.ClosesAs.running_closes`. -/
theorem runningArmSteps : Obligations.RunningArmSteps := by
  refine ⟨fun x c hstate hctx hphase => ?_, fun s i a p c w x z hcloses hstate hctx hphase hshots => ?_⟩
  · intro phase rate cap target
    have hnext : x.nextPhase c = phase := Arm.nextPhase_eq x c hphase
    obtain ⟨htarget, hoperative⟩ := c.wildTarget_eq phase
    refine ⟨fun htop hnear => ?_, fun hno => ?_⟩
    · rw [Arm.runningStep_closes hstate hctx ⟨hnext.trans htop, hnear⟩]
      exact (Arm.takes_raiseCause (x.withControl (x.nextPhase c) x.wildSet x.ratio) .normal).1 (.inl hstate)
    · rw [Arm.runningStep_goes hstate hctx (by rw [hnext]; exact hno), hnext, htarget, hoperative]
      rfl
  · intro n ethanol closes floods outside count fails
    obtain ⟨v, order, horder, hexec, hv⟩ := hcloses.runs (by rw [Arm.isOpen, hstate]; rfl)
    have hx : x.Runs c := ⟨hstate, hctx, Arm.noTimeout_of_entries fun e he sh hsh => hshots e he sh hsh⟩
    have hclose := Arm.closes_iff (c := c) hphase
    have hfail := Arm.fails_iff hctx
    have hbatch : OneBatch a v (v.runBlocks a order) := OneBatch.foldl _ (OneBatch.runBlock _) order v
    refine ⟨_, hexec, fun b hb => (hbatch.arms b hb).trans (hv.arms b hb), fun hno hdry hgood => ?_,
      fun cause hcause hsettle => ?_⟩
    · have harm := hv.running_goes horder hx (mt hclose.1 hno) hdry (mt hfail.1 hgood)
      have hflow : (v.runBlocks a order).meter a .wild = v.meter a .wild :=
        congrArg (fun m : Vector _ 8 => m[a].wild) hbatch.meters
      have hratio : (x.ratioAct true (v.meter a .wild).flow).ratio = x.ratioNext c (v.meter a .wild).flow := by
        rw [Arm.ratioAct_goes hstate hctx hdry (mt hfail.1 hgood)]
      obtain ⟨⟨hpassed, -, -, hinjectors⟩, hentries⟩ := Arm.additivePass_passes hx.noTimeout
      rw [harm, hflow, hratio]
      refine ⟨?_, fun k => hentries k, fun j => ⟨(hinjectors j).2.1, (hinjectors j).1⟩⟩
      exact (congrArg (fun y : Arm => y.withControl x.runningStep.phase x.runningStep.wildSet
        { x.ratioNext c (v.meter a .wild).flow with limited := x.runningStep.ratio.limited }) hpassed :)
    · have hends := hv.running_closes horder hx hsettle (cause := cause) (by
        rcases hcause with ⟨rfl, hc, hf, hg⟩ | ⟨rfl, hf, hc⟩ | ⟨rfl, hg, hc⟩
        · exact .inl ⟨rfl, hclose.2 hc, hf, mt hfail.1 hg⟩
        · exact .inr ⟨mt hclose.1 hc, .inl ⟨rfl, hf⟩⟩
        · exact .inr ⟨mt hclose.1 hc, .inr ⟨rfl, hfail.2 hg⟩⟩)
      exact ⟨hends.state, hends.endReason, hends.secondary, hends.phase, hends.wildSet, hends.ctrlSet, hends.limited,
        hends.delivered, hends.sense, hends.ctx, hends.wild, hends.ctrl⟩

end Sys2Proof.Machine
end

section
/-! PROOFS. The layouts of the downstream trunk frame (R17 to R20, R37) and of the upstream rack frame (R6 to R8, R15). -/

namespace Sys2Proof.Machine

/-! ## Bytes at an offset -/

/-- The byte of a field of one byte, read as bits. -/
theorem getD_of_drop {p r : List Byte} {o v : Nat} (hv : v < 256) (h : p.drop o = field 1 v ++ r) :
    p.getD o 0 = BitVec.ofNat 8 v := by
  rw [field_one hv] at h
  have hget : p[o]? = some (BitVec.ofNat 8 v) := by
    have := congrArg (fun l : List Byte => l[0]?) h
    simpa using this
  rw [List.getD_eq_getElem?_getD, hget, Option.getD_some]

theorem packBits_lt : ∀ l : List Bool, packBits l < 2 ^ l.length
  | [] => by decide
  | b :: l => by
    have := packBits_lt l
    rw [packBits, List.length_cons, pow_succ]
    cases b <;> simp <;> omega

theorem getLsbD_packBits {l : List Bool} {j : Nat} (hj : j < 8) :
    (BitVec.ofNat 8 (packBits l)).getLsbD j = l.getD j false := by
  rw [BitVec.getLsbD_ofNat, packBits_testBit, decide_eq_true hj, Bool.true_and]

/-! ## The trunk frame -/

theorem State.slotWord_length (s : State) (i : Fin 64) : (s.slotWord i).length = 6 := by
  unfold State.slotWord
  simp only [List.length_append, field_length]

/-- The slots of a frame, by index. -/
theorem slots_getElem? {n : Nat} (hn : n = 16 ∨ n = 32 ∨ n = 64) : 
    ((List.finRange 64).filter (fun i => i.val < n)).length = n ∧
    ∀ i : Fin 64, i.val < n → ((List.finRange 64).filter (fun i => i.val < n))[i.val]? = some i := by
  rcases hn with rfl | rfl | rfl <;> decide +revert

/-- What the word of a slot carries (R19). -/
def State.slotContent (s : State) (i : Fin 64) : Nat × Nat × Bool :=
  match s.frameAssignment i with
  | none => (0, 0, false)
  | some ar => if s.trunk.testFrame then (3, testPattern s.trunk.frameCounter i.val, false) else s.wordContent ar.1 ar.2

theorem State.slotContent_of_assigned {s : State} {i : Fin 64} {a : Fin 8} {r : Role} (hlt : i.val < s.trunk.slotCount)
    (hr : r ≠ .unused) (hentry : s.trunk.table[i] = { arm := a, role := r }) : s.slotContent i =
      if s.trunk.testFrame then (3, testPattern s.trunk.frameCounter i.val, false) else s.wordContent a r := by
  unfold State.slotContent
  rw [State.frameAssignment, assignment_eq_some.2 ⟨hlt, hr, hentry⟩]

theorem State.slotContent_of_unused {s : State} {i : Fin 64} (h : s.trunk.table[i].role = .unused) :
    s.slotContent i = (0, 0, false) := by
  unfold State.slotContent
  have hnone : s.frameAssignment i = none := by
    cases hassigned : s.frameAssignment i with
    | none => rfl
    | some ar =>
      obtain ⟨-, hr, hentry⟩ := assignment_eq_some.1 hassigned
      rw [hentry] at h
      exact absurd h hr
  rw [hnone]

/-- A slot word by its fields (R19, R20). -/
theorem State.slotWord_carries {s : State} {i : Fin 64} {kind value : Nat} {toggle : Bool}
    (h : s.slotContent i = (kind, value, toggle)) (hkind : kind < 256) :
    byteAt (s.slotWord i) 0 = kind ∧ Carries (s.slotWord i) 2 2 value ∧
    ((s.slotWord i).getD 1 0).getLsbD 0 = toggle := by
  have hword : (s.slotWord i).drop 0 = field 1 kind ++ (field 1 (downFlags toggle (s.serviceFields i).2) ++ (field 2 value ++
      (field 1 (s.serviceFields i).1 ++ field 1 i.val))) := by
    rw [List.drop_zero, State.slotWord]
    change field 1 (s.slotContent i).1 ++ field 1 (downFlags (s.slotContent i).2.2 _) ++ field 2 (s.slotContent i).2.1 ++ _ ++ _ = _
    rw [h]
    simp only [List.append_assoc]
  have h1 := drop_field (o' := 1) hword rfl
  have h2 := drop_field (o' := 2) h1 rfl
  have hflags : downFlags toggle (s.serviceFields i).2 < 256 :=
    Nat.lt_of_lt_of_le (packBits_lt _) (by show 2 ^ 4 ≤ 256; decide)
  refine ⟨byteAt_of_drop hkind hword, carries_of_drop h2, ?_⟩
  rw [getD_of_drop hflags h1, downFlags, getLsbD_packBits (by decide)]
  rfl

theorem State.slotWord_index (s : State) (i : Fin 64) : (s.slotWord i).getD 5 0 = BitVec.ofNat 8 i.val := by
  have hdrop : (s.slotWord i).drop 5 = field 1 i.val ++ [] := by
    rw [State.slotWord, List.drop_left' (by simp only [List.length_append, field_length]), List.append_nil]
  exact getD_of_drop (by omega) hdrop

/-- The service fields of a slot word (R20). -/
theorem State.slotWord_service {s : State} {i : Fin 64} {v : Nat} {f : ServiceFlags} (h : s.serviceFields i = (v, f))
    (hv : v < 256) : (s.slotWord i).getD 4 0 = BitVec.ofNat 8 v ∧ ((s.slotWord i).getD 1 0).getLsbD 1 = f.start ∧
    ((s.slotWord i).getD 1 0).getLsbD 2 = f.fin ∧ ((s.slotWord i).getD 1 0).getLsbD 3 = f.active := by
  have hword : (s.slotWord i).drop 1 = field 1 (downFlags (s.slotContent i).2.2 f) ++ (field 2 (s.slotContent i).2.1 ++
      (field 1 v ++ field 1 i.val)) := by
    rw [State.slotWord]
    change (field 1 (s.slotContent i).1 ++ field 1 (downFlags (s.slotContent i).2.2 _) ++ field 2 (s.slotContent i).2.1 ++ _ ++
      _).drop 1 = _
    rw [h]
    simp only [List.append_assoc]
    exact List.drop_left' (field_length _ _)
  have h4 := drop_field (o' := 4) (drop_field (o' := 2) hword rfl) rfl
  have hflags : downFlags (s.slotContent i).2.2 f < 256 :=
    Nat.lt_of_lt_of_le (packBits_lt _) (by show 2 ^ 4 ≤ 256; decide)
  have hbit : ∀ j, j < 8 → ((s.slotWord i).getD 1 0).getLsbD j =
      [(s.slotContent i).2.2, f.start, f.fin, f.active].getD j false := fun j hj => by
    rw [getD_of_drop hflags hword, downFlags, getLsbD_packBits hj]
  exact ⟨getD_of_drop hv h4, hbit 1 (by decide), hbit 2 (by decide), hbit 3 (by decide)⟩

/-- The parts of the trunk frame (R18). -/
theorem State.trunkFrame_parts {s : State} (hcount : s.trunk.slotCount = 16 ∨ s.trunk.slotCount = 32 ∨ s.trunk.slotCount = 64) :
    let words := ((List.finRange 64).filter (fun i => i.val < s.trunk.slotCount)).flatMap s.slotWord
    let body := field 2 (s.trunk.frameCounter % 65536) ++ field 1 (headerFlags s.trunk.testFrame s.trunk.slotCount) ++ words
    s.trunkFrame = [0xA5, 0x3C] ++ body ++ checkBytes body ∧ words.length = 6 * s.trunk.slotCount ∧
    ∀ i : Fin 64, i.val < s.trunk.slotCount → ∃ r, words.drop (6 * i.val) = s.slotWord i ++ r := by
  intro words body
  obtain ⟨hlength, hslots⟩ := slots_getElem? hcount
  refine ⟨rfl, ?_, fun i hi => drop_flatMap_of_length s.slotWord_length (hslots i hi)⟩
  · rw [List.length_flatMap, List.map_congr_left fun i _ => s.slotWord_length i, List.map_const', List.sum_replicate,
      hlength, smul_eq_mul, Nat.mul_comm]

/-- The word of a slot in the frame (R18). -/
theorem State.trunkFrame_word {s : State} (hcount : s.trunk.slotCount = 16 ∨ s.trunk.slotCount = 32 ∨ s.trunk.slotCount = 64)
    {i : Fin 64} (hi : i.val < s.trunk.slotCount) : (s.trunkFrame.drop (5 + 6 * i.val)).take 6 = s.slotWord i := by
  obtain ⟨hframe, hwords, hslot⟩ := State.trunkFrame_parts hcount
  generalize ((List.finRange 64).filter (fun i => i.val < s.trunk.slotCount)).flatMap s.slotWord = words at hframe hwords hslot
  obtain ⟨r, hr⟩ := hslot i hi
  generalize checkBytes _ = check at hframe
  have h2 : s.trunkFrame.drop 2 = field 2 (s.trunk.frameCounter % 65536) ++
      (field 1 (headerFlags s.trunk.testFrame s.trunk.slotCount) ++ (words ++ check)) := by
    rw [hframe]
    simp only [List.append_assoc]
    rfl
  have h5 := drop_field (o' := 5) (drop_field (o' := 4) h2 rfl) rfl
  rw [← List.drop_drop, h5, List.drop_append_of_le_length (by omega), hr, List.append_assoc,
    List.take_left' (s.slotWord_length i)]

/-- Settles O28: the frame by its parts, each slot word by `State.slotWord_carries`. -/
theorem trunkFrameLayout : Obligations.TrunkFrameLayout := by
  intro s hcount f
  obtain ⟨hframe, hwords, -⟩ := State.trunkFrame_parts hcount
  generalize ((List.finRange 64).filter (fun i => i.val < s.trunk.slotCount)).flatMap s.slotWord = words at hframe hwords
  generalize hbody : field 2 (s.trunk.frameCounter % 65536) ++ field 1 (headerFlags s.trunk.testFrame s.trunk.slotCount) ++
    words = body at hframe
  have hrest : f.drop 2 = body ++ checkBytes body := by
    rw [show f = _ from hframe]
    rfl
  have h2 : f.drop 2 = field 2 (s.trunk.frameCounter % 65536) ++
      (field 1 (headerFlags s.trunk.testFrame s.trunk.slotCount) ++ (words ++ checkBytes body)) := by
    rw [hrest, ← hbody]
    simp only [List.append_assoc]
  have hbodyLength : body.length = 3 + 6 * s.trunk.slotCount := by
    rw [← hbody]
    simp only [List.length_append, field_length, hwords]
  have h4 := drop_field (o' := 4) h2 rfl
  have h5 := drop_field (o' := 5) h4 rfl
  have hflags : headerFlags s.trunk.testFrame s.trunk.slotCount < 256 := by
    unfold headerFlags
    split_ifs <;> decide
  refine ⟨?_, by rw [show f = _ from hframe]; rfl, carries_of_drop h2 (Nat.mod_lt _ (by decide)), byteAt_of_drop hflags h4, ?_,
    fun i hi => ?_⟩
  · rw [show f = _ from hframe]
    simp only [List.length_append, hbodyLength, checkBytes_length, List.length_cons, List.length_nil]
    omega
  · rw [drop_after (o' := 5 + 6 * s.trunk.slotCount) h5 hwords rfl, hrest, List.take_left' hbodyLength]
  · intro w carries
    have hw : w = s.slotWord i := State.trunkFrame_word hcount hi
    have hcarries : ∀ kind value toggle, s.slotContent i = (kind, value, toggle) → kind < 256 → carries kind value toggle :=
      fun kind value toggle hc hk => by
        have := State.slotWord_carries hc hk
        rwa [← hw] at this
    have hassigned := fun (a : Fin 8) (r : Role) hr (h : s.trunk.table[i] = { arm := a, role := r }) =>
      State.slotContent_of_assigned (s := s) hi hr h
    refine ⟨by rw [hw]; exact s.slotWord_index i, fun hunused => ?_, fun htest hused => ?_, fun htest a => ?_⟩
    · exact hcarries 0 0 false (State.slotContent_of_unused hunused) (by decide)
    · refine hcarries 3 _ false ?_ (by decide)
      rw [hassigned s.trunk.table[i].arm s.trunk.table[i].role hused rfl, if_pos htest]
      rfl
    · have hnormal := fun r hr h => (hassigned a r hr h).trans (if_neg (by rw [htest]; nofun))
      refine ⟨fun h => ?_, fun h => ?_, fun h => ?_, fun k h => ⟨fun sh hsh => ?_, fun hno => ?_⟩⟩
      · rcases h with h | h
        · exact hcarries _ _ _ (hnormal .wildMeter nofun h) (by decide)
        · exact hcarries _ _ _ (hnormal .ctrlMeter nofun h) (by decide)
      · exact hcarries _ _ _ (hnormal .wildValve nofun h) (by decide)
      · exact hcarries _ _ _ (hnormal .ctrlValve nofun h) (by decide)
      · refine hcarries _ _ _ ((hnormal (.inj k) nofun h).trans ?_) (by decide)
        unfold State.wordContent
        dsimp only
        rw [hsh]
      · refine hcarries _ _ _ ((hnormal (.inj k) nofun h).trans ?_) (by decide)
        unfold State.wordContent
        dsimp only
        rw [hno]


/-! ## The upstream frame -/

theorem armImage_length (x : Arm) (wild ctrl : Meter) : (armImage x wild ctrl).length = 20 := by
  unfold armImage
  simp only [List.length_append, field_length]

theorem Arm.imageFraction_le (x : Arm) : x.imageFraction ≤ 0xFFFF := by
  unfold Arm.imageFraction
  split_ifs
  · unfold Arm.actualFraction
    dsimp only
    split_ifs
    · exact le_rfl
    · exact (Nat.div_le_of_le_mul (Nat.mul_le_mul_right _ (Nat.le_add_left _ _))).trans (by decide : 10000 ≤ 0xFFFF)
  · exact le_rfl

/-- The fields of a process image, each at its offset (R8). -/
theorem armImage_fields (x : Arm) (wild ctrl : Meter) :
    let image := armImage x wild ctrl
    let flags := x.imageFlags (decide (0 < wild.age) || decide (0 < ctrl.age))
    byteAt image 0 = x.state.code ∧ byteAt image 1 = x.imagePhase ∧ byteAt image 2 = flags ∧
    image.getD 2 0 = BitVec.ofNat 8 flags ∧ byteAt image 3 = x.sense.code ∧ Carries image 4 2 x.batchNumber ∧
    Carries image 6 4 x.imageVolumes.1 ∧ Carries image 10 4 x.imageVolumes.2 ∧ Carries image 14 2 wild.flow ∧
    Carries image 16 2 ctrl.flow ∧ numAt image 18 2 = x.imageFraction := by
  intro image flags
  have h0 : image.drop 0 = field 1 x.state.code ++ (field 1 x.imagePhase ++ (field 1 flags ++ (field 1 x.sense.code ++
      (field 2 x.batchNumber ++ (field 4 x.imageVolumes.1 ++ (field 4 x.imageVolumes.2 ++ (field 2 wild.flow ++
      (field 2 ctrl.flow ++ (field 2 x.imageFraction ++ []))))))))) := by
    rw [List.drop_zero, List.append_nil]
    show armImage x wild ctrl = _
    unfold armImage
    simp only [List.append_assoc]
    rfl
  have h1 := drop_field (o' := 1) h0 rfl
  have h2 := drop_field (o' := 2) h1 rfl
  have h3 := drop_field (o' := 3) h2 rfl
  have h4 := drop_field (o' := 4) h3 rfl
  have h6 := drop_field (o' := 6) h4 rfl
  have h10 := drop_field (o' := 10) h6 rfl
  have h14 := drop_field (o' := 14) h10 rfl
  have h16 := drop_field (o' := 16) h14 rfl
  have h18 := drop_field (o' := 18) h16 rfl
  have hstate : x.state.code < 256 := by cases x.state <;> decide
  have hphase : x.imagePhase < 256 := by
    unfold Arm.imagePhase
    split_ifs
    · cases x.phase <;> decide
    · decide
  have hflags : flags < 256 := Nat.lt_of_lt_of_le (packBits_lt _) (by show 2 ^ 5 ≤ 256; decide)
  exact ⟨byteAt_of_drop hstate h0, byteAt_of_drop hphase h1, byteAt_of_drop hflags h2, getD_of_drop hflags h2,
    byteAt_of_drop (Sense.code_lt _) h3, carries_of_drop h4, carries_of_drop h6, carries_of_drop h10, carries_of_drop h14,
    carries_of_drop h16, carries_of_drop h18 (Nat.lt_of_le_of_lt x.imageFraction_le (by decide))⟩

/-- The data of a segment are at most 32 bytes, its kind at most 5 (R11). -/
theorem Transaction.segment_bounds (t : Transaction) : t.segment.1 < 256 ∧ t.segment.2.1.length ≤ 32 := by
  unfold Transaction.segment
  split
  · exact ⟨(by decide : 0 < 256), (by decide : 0 ≤ 32)⟩
  · exact ⟨(by decide : 5 < 256), (by decide : 0 ≤ 32)⟩
  · dsimp only
    split_ifs with hrest hsent hsent
    · exact ⟨(by decide : 4 < 256), hrest⟩
    · exact ⟨(by decide : 3 < 256), hrest⟩
    · exact ⟨(by decide : 1 < 256), List.length_take_le _ _⟩
    · exact ⟨(by decide : 2 < 256), List.length_take_le _ _⟩

theorem Arm.imageVolumes_of_closed {x : Arm} (h : x.isOpen = false) : x.imageVolumes = (0, 0) := by
  unfold Arm.imageVolumes
  unfold Arm.isOpen ArmState.isOpen at h
  cases hs : x.state <;> rw [hs] at h <;> simp_all

theorem Arm.imageVolumes_of_waiting {x : Arm} {c : Context} (h : x.state = .authorized ∨ x.state = .startPending)
    (hctx : x.ctx = some c) : x.imageVolumes = (0, c.presetMl) := by
  unfold Arm.imageVolumes
  rcases h with h | h <;> rw [h, hctx] <;> rfl

theorem Arm.imageVolumes_of_open {x : Arm} (hopen : x.isOpen = true) (h : x.state ≠ .authorized)
    (h' : x.state ≠ .startPending) : x.imageVolumes = (x.delivered, x.remaining) := by
  unfold Arm.imageVolumes
  unfold Arm.isOpen ArmState.isOpen at hopen
  cases hs : x.state <;> rw [hs] at h h' hopen <;> simp_all

/-- The parts of the upstream frame, the segment and the check word at their offsets. -/
theorem State.upstreamFrame_parts (s : State) :
    let f := s.upstreamFrame
    let seg := s.rack.transaction.segment
    ∃ body images, f = [0xD2, 0xB4] ++ body ++ checkBytes body ∧ body.length = 167 + seg.2.1.length ∧
    f.take 3 = [0xD2, 0xB4, s.echo] ∧
    f.drop 3 = s.statusBlock ++ (images ++ (field 1 seg.1 ++ (field 1 seg.2.1.length ++ (seg.2.1 ++ checkBytes body)))) ∧
    images.length = 160 ∧ ∀ a : Fin 8, ∃ r, images.drop (20 * a.val) =
        armImage (s.arm a) (s.meter a .wild) (s.meter a .ctrl) ++ r := by
  intro f seg
  have himages : (allArms.flatMap (fun a => armImage (s.arm a) (s.meter a .wild) (s.meter a .ctrl))).length = 160 := by
    rw [List.length_flatMap, List.map_congr_left fun a _ => armImage_length _ _ _]
    decide
  refine ⟨_, allArms.flatMap (fun a => armImage (s.arm a) (s.meter a .wild) (s.meter a .ctrl)), rfl, ?_, rfl, ?_, himages,
    fun a => drop_flatMap_of_length (fun a => armImage_length _ _ _) (k := a.val) (x := a) ?_⟩
  · simp only [List.length_append, field_length, himages, State.statusBlock, List.length_singleton]
    rfl
  · show List.drop 3 ([0xD2, 0xB4] ++ ([s.echo] ++ _ ++ _ ++ _ ++ _ ++ _) ++ _) = _
    simp only [List.append_assoc]
    rfl
  · revert a
    decide

/-- Settles O26: the frame by its parts, each image by `armImage_fields`. -/
theorem upstreamFrameLayout : Obligations.UpstreamFrameLayout := by
  intro s data f
  obtain ⟨body, images, hframe, hbody, htake, h3, himages, himage⟩ := s.upstreamFrame_parts
  obtain ⟨hkind, hlength⟩ := s.rack.transaction.segment_bounds
  change data.length ≤ 32 at hlength
  change body.length = 167 + data.length at hbody
  have hstatus := h3
  unfold State.statusBlock at hstatus
  simp only [List.append_assoc] at hstatus
  have h4 := drop_field (o' := 4) hstatus rfl
  have h5 := drop_field (o' := 5) h4 rfl
  have h6 := drop_field (o' := 6) h5 rfl
  have h7 := drop_field (o' := 7) h6 rfl
  have h167 := drop_after (o' := 167) h7 himages rfl
  have h168 := drop_field (o' := 168) h167 rfl
  have h169 := drop_field (o' := 169) h168 rfl
  have hrest : f.drop 2 = body ++ checkBytes body := by
    rw [show f = _ from hframe]
    rfl
  refine ⟨?_, htake, fun a => ?_, ?_, ?_, carries_of_drop h5, byteAt_of_drop (Sense.code_lt _) h6, getD_of_drop hkind h167,
    by rw [h169, List.take_left' rfl], hlength, getD_of_drop (by omega) h168, ?_⟩
  · rw [show f = _ from hframe]
    simp only [List.length_append, hbody, checkBytes_length, List.length_cons, List.length_nil]
    omega
  · intro image
    have himageEq : image = armImage (s.arm a) (s.meter a .wild) (s.meter a .ctrl) := by
      obtain ⟨r, hr⟩ := himage a
      have hdrop : f.drop (7 + 20 * a.val) = armImage (s.arm a) (s.meter a .wild) (s.meter a .ctrl) ++ (r ++ f.drop 167) := by
        rw [← List.drop_drop, h7, List.drop_append_of_le_length (by omega), hr, List.append_assoc, h167]
      exact (congrArg (List.take 20) hdrop).trans (List.take_left' (armImage_length _ _ _))
    have hfields := armImage_fields (s.arm a) (s.meter a .wild) (s.meter a .ctrl)
    rw [← himageEq] at hfields
    generalize s.meter a .wild = wild at hfields himageEq ⊢
    generalize s.meter a .ctrl = ctrl at hfields himageEq ⊢
    generalize s.arm a = x at hfields himageEq ⊢
    obtain ⟨hstate, hphase, hflags, hflagsByte, hsense, hnumber, hvolume, hremaining, hwild, hctrl, hfraction⟩ := hfields
    refine ⟨himageEq, hstate, hsense, ?_, hnumber, hphase, hflags.trans ?_, hwild, hctrl, fun hclosed => ?_, ?_⟩
    · rw [hflagsByte, Arm.imageFlags, getLsbD_packBits (by decide)]
      rfl
    · unfold Arm.imageFlags
      simp only [packBits]
      grind
    · rw [Arm.imageVolumes_of_closed hclosed] at hvolume hremaining
      refine ⟨hvolume (by decide), hremaining (by decide), hfraction.trans ?_⟩
      rw [Arm.imageFraction, hclosed]
      rfl
    · intro c hopen hctx w k delivered ethanol
      refine ⟨fun hwaits => ?_, fun ha hp => ?_, hfraction.trans ?_⟩
      · rw [Arm.imageVolumes_of_waiting hwaits hctx] at hvolume hremaining
        exact ⟨hvolume (by show 0 < 256 ^ 4; decide), hremaining⟩
      · rw [Arm.imageVolumes_of_open hopen ha hp] at hvolume hremaining
        rw [Arm.remaining_of_ctx hctx, Arm.delivered_of_ctx hctx] at hremaining
        rw [Arm.delivered_of_ctx hctx] at hvolume
        exact ⟨hvolume, hremaining⟩
      · rw [Arm.imageFraction, if_pos hopen, Arm.actualFraction_of_ctx hctx]
        by_cases hnone : x.wild.net + x.ctrl.net = 0
        · rw [if_pos hnone, if_pos hnone, Option.getD_none]
        · rw [if_neg hnone, if_neg hnone, Option.getD_some]
  · refine (byteAt_of_drop ?_ hstatus).trans ?_ <;>
      cases s.trunk.state <;> cases s.timebase.internal <;> cases s.lines.certUnlocked <;> decide
  · refine (byteAt_of_drop ?_ h4).trans ?_ <;>
      cases s.store.status <;> cases s.store.saveFault <;> decide
  · rw [drop_after (o' := 169 + data.length) h169 rfl rfl, hrest, List.take_left' hbody]

end Sys2Proof.Machine
end

section
/-! PROOFS. The segments of the management channel, both ways (R11 to R15). -/

namespace Sys2Proof.Machine

/-! ## Assembly (R11, R12) -/

/-- The assembly and the discard flag of the channel set. -/
def State.withLink (s : State) (assembly : Option Assembly) (discard : Bool) : State :=
  { s with rack := { s.rack with assembly := assembly, discard := discard } }

/-- An assembly opened by a frame's segment. -/
def Assembly.opened (f : DownFrame) : Assembly :=
  { buffer := f.segment.take 243, count := f.segment.length, expected := f.number + 1 }

/-- An assembly that a frame's segment extends. -/
def Assembly.extended (b : Assembly) (f : DownFrame) : Assembly :=
  { buffer := (b.buffer ++ f.segment).take 243, count := b.count + f.segment.length, expected := f.number + 1 }

theorem Assembly.fresh_append (f : DownFrame) : Assembly.fresh.append f.number f.segment = Assembly.opened f := by
  unfold Assembly.append Assembly.fresh Assembly.opened
  rw [List.nil_append, Nat.zero_add]
  rfl

/-- During a transaction a segment but NONE sets the discard flag alone (R14). -/
theorem State.takeSegment_of_busy {s : State} {f : DownFrame} (h : s.rack.transaction ≠ .none) :
    s.takeSegment f = if f.kind = .none then s else { s with rack := { s.rack with discard := true } } := by
  unfold State.takeSegment
  rw [if_neg h]
  rfl

theorem RackLink.checkGap_of_expected {r : RackLink} {n : Byte} (h : ∀ b, r.assembly = some b → b.expected = n) :
    r.checkGap n = r := by
  unfold RackLink.checkGap
  cases hb : r.assembly with
  | none => rfl
  | some b => exact if_pos (h b hb)

/-- A frame number that fits makes no gap (R12). -/
theorem State.takeSegment_of_expected {s : State} {f : DownFrame} (hnone : s.rack.transaction = .none)
    (h : ∀ b, s.rack.assembly = some b → b.expected = f.number) : s.takeSegment f = s.assemble f := by
  unfold State.takeSegment
  rw [if_pos hnone]
  show State.assemble { s with rack := s.rack.checkGap f.number } f = _
  rw [RackLink.checkGap_of_expected h]

/-- A gap breaks the assembly, then the segment is taken (R12). -/
theorem State.takeSegment_of_gap {s : State} {f : DownFrame} {b : Assembly} (hnone : s.rack.transaction = .none)
    (hb : s.rack.assembly = some b) (hgap : f.number ≠ b.expected) :
    s.takeSegment f = (s.withLink none true).takeSegment f := by
  rw [State.takeSegment_of_expected (s := s.withLink none true) hnone nofun]
  unfold State.takeSegment
  rw [if_pos hnone]
  have hbroken : s.rack.checkGap f.number = s.rack.breakAssembly := by
    unfold RackLink.checkGap
    rw [hb]
    exact if_neg (Ne.symm hgap)
  show State.assemble { s with rack := s.rack.checkGap f.number } f = _
  rw [hbroken]
  rfl

/-- A segment on an empty assembly (R11). -/
theorem State.takeSegment_of_empty {s : State} {f : DownFrame} (hnone : s.rack.transaction = .none)
    (hempty : s.rack.assembly = none) : s.takeSegment f =
      match f.kind with
      | .none => s
      | .first => s.withLink (some (Assembly.opened f)) s.rack.discard
      | .middle | .last => s.withLink none true
      | .only => s.completeRequest f.segment f.segment.length := by
  rw [State.takeSegment_of_expected hnone (by rw [hempty]; nofun)]
  have hsame : ({ s.rack with discard := true } : RackLink) = { s.rack with assembly := none, discard := true } := by
    rw [← hempty]
  unfold State.assemble
  rw [hempty]
  cases hkind : f.kind with
  | none => rfl
  | first =>
    show s.modRack (fun r => { r with assembly := some (Assembly.fresh.append f.number f.segment) }) = _
    rw [Assembly.fresh_append]
    rfl
  | middle => exact congrArg (fun r => { s with rack := r }) hsame
  | last => exact congrArg (fun r => { s with rack := r }) hsame
  | only => rfl

/-- A segment in the expected frame on an open assembly (R11, R12). -/
theorem State.takeSegment_of_open {s : State} {f : DownFrame} {b : Assembly} (hnone : s.rack.transaction = .none)
    (hb : s.rack.assembly = some b) (hbuffer : b.buffer.length ≤ 243) (hexpected : f.number = b.expected) :
    s.takeSegment f =
      match f.kind with
      | .none => s.withLink (some { b with expected := f.number + 1 }) s.rack.discard
      | .first => s.withLink (some (Assembly.opened f)) true
      | .middle => s.withLink (some (b.extended f)) s.rack.discard
      | .last => (s.withLink none s.rack.discard).completeRequest (b.extended f).buffer (b.extended f).count
      | .only => (s.withLink none true).completeRequest f.segment f.segment.length := by
  rw [State.takeSegment_of_expected hnone (fun c hc => by rw [hb] at hc; cases hc; exact hexpected.symm)]
  unfold State.assemble
  rw [hb]
  cases hkind : f.kind with
  | none =>
    have hkept : b.append f.number [] = { b with expected := f.number + 1 } := by
      unfold Assembly.append
      rw [List.append_nil, assemblyLimit, List.take_of_length_le hbuffer]
      rfl
    show s.modRack (fun r => { r with assembly := some (b.append f.number []) }) = _
    rw [hkept]
    rfl
  | first =>
    show s.modRack (fun r => { r.breakAssembly with assembly := some (Assembly.fresh.append f.number f.segment) }) = _
    rw [Assembly.fresh_append]
    rfl
  | middle => rfl
  | last => rfl
  | only => rfl

/-! ## A request cut into segments -/

theorem take_append_take (n : Nat) (x y : List Byte) : (x.take n ++ y).take n = (x ++ y).take n := by
  rw [List.take_append, List.take_append, List.take_take, Nat.min_self, List.length_take]
  by_cases h : x.length ≤ n
  · rw [Nat.min_eq_right h]
  · rw [Nat.min_eq_left (by omega), Nat.sub_self, Nat.sub_eq_zero_of_le (by omega)]

/-- The assembly that has received these bytes and expects this frame number. -/
def Assembly.ofBytes (bytes : List Byte) (expected : Byte) : Assembly :=
  { buffer := bytes.take 243, count := bytes.length, expected := expected }

theorem Assembly.ofBytes_extended (bytes : List Byte) (n : Byte) (f : DownFrame) :
    (Assembly.ofBytes bytes n).extended f = Assembly.ofBytes (bytes ++ f.segment) (f.number + 1) := by
  unfold Assembly.extended Assembly.ofBytes
  rw [take_append_take, List.length_append]

/-- The MIDDLE segments and the LAST one complete the request. -/
theorem State.foldl_takeSegment {l : DownFrame} (hlast : l.kind = .last) : ∀ (ms : List DownFrame) (s : State)
    (f : DownFrame) (bytes : List Byte), s.rack.transaction = .none →
    s.rack.assembly = some (Assembly.ofBytes bytes (f.number + 1)) → (∀ m ∈ ms, m.kind = .middle) →
    List.IsChain (fun x y => y.number = x.number + 1) (f :: (ms ++ [l])) →
    (ms ++ [l]).foldl State.takeSegment s = (s.withLink none s.rack.discard).completeRequest
      ((bytes ++ (ms.flatMap (·.segment) ++ l.segment)).take 243) (bytes ++ (ms.flatMap (·.segment) ++ l.segment)).length
  | [], s, f, bytes, hnone, hassembly, _, hchain => by
    have hnumber : l.number = f.number + 1 := (List.isChain_cons_cons.1 hchain).1
    rw [List.nil_append, List.foldl_cons, List.foldl_nil,
      State.takeSegment_of_open hnone hassembly (List.length_take_le _ _) hnumber, hlast]
    dsimp only
    rw [Assembly.ofBytes_extended, List.flatMap_nil, List.nil_append]
    rfl
  | m :: ms, s, f, bytes, hnone, hassembly, hmiddle, hchain => by
    obtain ⟨hnumber, hrest⟩ := List.isChain_cons_cons.1 hchain
    rw [List.cons_append, List.foldl_cons,
      State.takeSegment_of_open hnone hassembly (List.length_take_le _ _) hnumber, hmiddle m List.mem_cons_self]
    dsimp only
    rw [Assembly.ofBytes_extended,
      State.foldl_takeSegment hlast ms
        (s.withLink (some (Assembly.ofBytes (bytes ++ m.segment) (m.number + 1))) s.rack.discard) m (bytes ++ m.segment)
        hnone rfl (fun x hx => hmiddle x (List.mem_cons_of_mem m hx)) hrest,
      List.flatMap_cons, List.append_assoc, List.append_assoc]
    rfl

/-! ## Complete requests (R13) -/

theorem RequestCode.ofCode_code (c : RequestCode) : RequestCode.ofCode c.code = some c := by cases c <;> rfl

/-- The record of a request is read as that request. -/
theorem parseRequest_record (code : RequestCode) (arm : Byte) {p : List Byte} (hp : p.length ≤ 240) :
    parseRequest ([BitVec.ofNat 8 code.code, arm, BitVec.ofNat 8 p.length] ++ p) (3 + p.length) =
      some { code := code, arm := arm, payload := p } := by
  have hcode : byteAt ([BitVec.ofNat 8 code.code, arm, BitVec.ofNat 8 p.length] ++ p) 0 = code.code :=
    (BitVec.toNat_ofNat _ _).trans (Nat.mod_eq_of_lt (RequestCode.code_lt code))
  have hcount : byteAt ([BitVec.ofNat 8 code.code, arm, BitVec.ofNat 8 p.length] ++ p) 2 = p.length :=
    (BitVec.toNat_ofNat _ _).trans (Nat.mod_eq_of_lt (by omega))
  unfold parseRequest
  rw [hcode, hcount, RequestCode.ofCode_code]
  exact if_pos ⟨by omega, hp, rfl⟩

/-- Bytes that spell no request (R13). -/
theorem parseRequest_malformed {bytes : List Byte} {count : Nat} (h : count < 3 ∨
    (∀ code : RequestCode, code.code ≠ byteAt bytes 0) ∨ 240 < byteAt bytes 2 ∨ count ≠ 3 + byteAt bytes 2) :
    parseRequest bytes count = none := by
  unfold parseRequest
  cases hcode : RequestCode.ofCode (byteAt bytes 0) with
  | none => rfl
  | some code =>
    refine if_neg fun ⟨hshort, hlong, hcount⟩ => ?_
    rcases h with h | h | h | h
    · omega
    · exact h code (beq_iff_eq.1 (List.find?_some (p := fun c : RequestCode => c.code == byteAt bytes 0) hcode))
    · omega
    · exact h hcount

theorem field_byteAt (bytes : List Byte) (o : Nat) : field 1 (byteAt bytes o) = [bytes.getD o 0] := by
  rw [field_one (by unfold byteAt; omega), byteAt, BitVec.ofNat_toNat, BitVec.setWidth_eq]

/-- The response record fixed for sending. -/
def State.withResponse (s : State) (record : List Byte) : State :=
  { s with rack := { s.rack with discard := false, transaction := .sending record 0 false } }

/-- What a malformed request leaves of the channel and the store engine (R13, R149, R159). -/
def State.answeredMalformed (t : State) (bytes : List Byte) (discard : Bool) : State :=
  { t with
    rack := { t.rack with
      discard := false, transaction := .sending [bytes.getD 0 0, 1, 1, if discard then 1 else 0, 0] 0 false },
    store := { t.store with latch := if byteAt bytes 0 = 0x0B then .clear else t.store.latch, prepared := false } }

theorem State.completeRequest_malformed {s : State} {bytes : List Byte} {count : Nat}
    (h : parseRequest bytes count = none) : s.completeRequest bytes count =
      (s.recordRefusal (armField bytes) .badRequest).answeredMalformed bytes
        (s.recordRefusal (armField bytes) .badRequest).rack.discard := by
  have hrecord : ∀ d : Bool, responseRecord (byteAt bytes 0) true .badRequest (responseFlags d false) [] =
      [bytes.getD 0 0, 1, 1, if d then 1 else 0, 0] := fun d => by
    unfold responseRecord
    rw [field_byteAt, responseFlags_false]
    rfl
  unfold State.completeRequest
  rw [h]
  have hfixed := hrecord (s.recordRefusal (armField bytes) .badRequest).rack.discard
  dsimp only
  unfold State.refuse
  generalize s.recordRefusal (armField bytes) .badRequest = u at hfixed ⊢
  show State.conclude (u.withResponse (responseRecord (byteAt bytes 0) true .badRequest
    (responseFlags u.rack.discard false) [])) _ _ = _
  rw [hfixed]
  rfl

/-! ## Responses in segments (R15) -/

theorem Transaction.segments_held (a : Fin 8) : ∀ n, Transaction.segments n (.held a) = List.replicate n (5, [])
  | 0 => rfl
  | n + 1 => congrArg _ (Transaction.segments_held a n)

/-- The kind code of a segment that is not the last of its response. -/
def openKind (sent : Nat) : Nat := if sent = 0 then 1 else 2

/-- The kind code of the last segment of a response. -/
def lastKind (sent : Nat) : Nat := if sent = 0 then 4 else 3

theorem Transaction.segment_last {bytes : List Byte} {sent : Nat} {reset : Bool} (h : (bytes.drop sent).length ≤ 32) :
    (Transaction.sending bytes sent reset).segment = (lastKind sent, bytes.drop sent, .none, reset) := by
  unfold Transaction.segment
  exact if_pos h

theorem Transaction.segment_open {bytes : List Byte} {sent : Nat} {reset : Bool} (h : ¬ (bytes.drop sent).length ≤ 32) :
    (Transaction.sending bytes sent reset).segment =
      (openKind sent, (bytes.drop sent).take 32, .sending bytes (sent + 32) reset, false) := by
  unfold Transaction.segment
  exact if_neg h

/-- The segments of what is left of a response, and the frame after them. -/
theorem Transaction.segments_sending (bytes : List Byte) (reset : Bool) : ∀ k sent, (bytes.drop sent).length ≤ 32 * (k + 1) →
    32 * k < (bytes.drop sent).length →
    let segs := Transaction.segments (k + 1) (.sending bytes sent reset)
    segs.flatMap (·.2) = bytes.drop sent ∧ (∀ x ∈ segs, x.2.length ≤ 32) ∧
    segs.map (·.1) = (if k = 0 then [lastKind sent] else openKind sent :: List.replicate (k - 1) 2 ++ [3]) ∧
    (Transaction.segments (k + 2) (.sending bytes sent reset)).getLast? = some (0, [])
  | 0, sent, hle, _ => by
    have hseg := Transaction.segment_last (reset := reset) (bytes := bytes) (sent := sent) hle
    simp only [Transaction.segments, hseg]
    refine ⟨List.append_nil _, fun x hx => ?_, rfl, rfl⟩
    rw [List.mem_singleton] at hx
    subst hx
    exact hle
  | k + 1, sent, hle, hlt => by
    have hseg := Transaction.segment_open (reset := reset) (bytes := bytes) (sent := sent) (by omega)
    have hdrop : bytes.drop (sent + 32) = (bytes.drop sent).drop 32 := (List.drop_drop ..).symm
    have hlength : (bytes.drop (sent + 32)).length = (bytes.drop sent).length - 32 := by rw [hdrop, List.length_drop]
    obtain ⟨hflat, hshort, hkinds, hend⟩ := Transaction.segments_sending bytes reset k (sent + 32) (by omega) (by omega)
    have hnext : ∀ n, Transaction.segments (n + 1) (.sending bytes sent reset) =
        (openKind sent, (bytes.drop sent).take 32) :: Transaction.segments n (.sending bytes (sent + 32) reset) := fun n => by
      rw [Transaction.segments, hseg]
    rw [hnext (k + 1), hnext (k + 2)]
    refine ⟨?_, fun x hx => ?_, ?_, ?_⟩
    · rw [List.flatMap_cons, hflat, hdrop]
      exact List.take_append_drop 32 _
    · rcases List.mem_cons.1 hx with hx | hx
      · subst hx
        exact List.length_take_le _ _
      · exact hshort x hx
    · rw [List.map_cons, hkinds]
      cases k with
      | zero => rfl
      | succ k => rfl
    · rw [List.getLast?_cons, hend]
      rfl

/-- Settles O21: the assembly segment by segment, the complete request by `parseRequest`, and the response by
`Transaction.segments_sending`. -/
theorem segmentsBothWays : Obligations.SegmentsBothWays := by
  refine ⟨fun s f l ms hnone hempty hfirst hlast hmiddle hchain => ?_, fun s f => ?_, fun s code arm p hready hempty hp => ?_,
    fun s bytes count hmalformed => ?_, fun n a => Transaction.segments_held a n, fun bytes reset hne => ?_⟩
  · intro bytes
    rw [List.cons_append, List.foldl_cons, State.takeSegment_of_empty hnone hempty, hfirst]
    dsimp only
    rw [State.foldl_takeSegment hlast ms (s.withLink (some (Assembly.opened f)) s.rack.discard) f f.segment hnone rfl hmiddle hchain, ← List.append_assoc]
    have hsame : s.withLink none s.rack.discard = s := by
      unfold State.withLink
      rw [← hempty]
    show (s.withLink none s.rack.discard).completeRequest _ _ = _
    rw [hsame]
  · exact ⟨State.takeSegment_of_busy, State.takeSegment_of_empty, fun b hnone hb hbuffer =>
      ⟨State.takeSegment_of_gap hnone hb, State.takeSegment_of_open hnone hb hbuffer⟩⟩
  · have hcleared : s.cleared = s := by
      unfold State.cleared State.modRack
      rw [← hempty]
    rw [exec_ofRequest s code arm p hready, hcleared, State.completeRequest, parseRequest_record code arm hp]
  · intro sent
    rw [State.completeRequest_malformed (parseRequest_malformed hmalformed)]
    refine ⟨fun a hlength harm => ?_, fun hdevice => ?_⟩
    · have hfield : armField bytes = a.val := (if_pos hlength).trans harm
      rw [hfield, State.recordRefusal, dif_pos a.isLt]
      rfl
    · have hfield : ¬ armField bytes < 8 := by
        unfold armField
        split_ifs with h <;> omega
      rw [State.recordRefusal, dif_neg hfield]
      rfl
  · intro n segs
    have hlength : 0 < bytes.length := List.length_pos_iff.2 hne
    have hn : n = (n - 1) + 1 := by omega
    obtain ⟨hflat, hshort, hkinds, hend⟩ := Transaction.segments_sending bytes reset (n - 1) 0
      (by rw [List.drop_zero]; omega) (by rw [List.drop_zero]; omega)
    rw [← hn] at hflat hshort hkinds
    refine ⟨hflat, hshort, hkinds.trans ?_, ?_⟩
    · by_cases h : n = 1
      · rw [if_pos h, if_pos (by omega)]
        rfl
      · rw [if_neg h, if_neg (by omega), Nat.sub_sub]
        rfl
    · rw [show n + 1 = (n - 1) + 2 by omega]
      exact hend

end Sys2Proof.Machine
end

section
/-! PROOFS. A period event whose windows are closed, its slot words and its transfers; the ends of a transfer (R17, R20,
R164 to R166). -/

namespace Sys2Proof.Machine

/-! ## The ends of a transfer -/

/-- The record of a refused SERVICE. -/
theorem responseRecord_service_refused (c : Sense) (discard : Bool) :
    responseRecord RequestCode.service.code true c (responseFlags discard false) [] =
      [0x0E, 1, BitVec.ofNat 8 c.code, if discard then 1 else 0, 0] := by
  unfold responseRecord
  rw [responseFlags_false, field_one (Sense.code_lt c)]
  rfl

/-- A transfer abandoned with its response wanted: the refusal released (R166). -/
def State.abandoned (s : State) (a : Fin 8) (code : Sense) : State :=
  { s with
    transfers := s.transfers.set a Transfer.released, arms := s.arms.set a { s.arm a with sense := code },
    rack := { s.rack with
      discard := false,
      transaction := .sending [0x0E, 1, BitVec.ofNat 8 code.code, if s.rack.discard then 1 else 0, 0] 0 false } }

theorem State.abandonTransfer_wanted {s : State} {a : Fin 8} (h : s.transfers[a].wanted = true) (code : Sense) :
    s.abandonTransfer a code = s.abandoned a code := by
  obtain ⟨-, heq⟩ | ⟨hno, -⟩ := s.abandonTransfer_cases a code
  · have hrecord := responseRecord_service_refused code s.rack.discard
    rw [heq]
    unfold State.abandoned
    rw [← hrecord]
    rfl
  · rw [h] at hno
    cases hno

theorem State.abandonTransfer_unwanted {s : State} {a : Fin 8} (h : s.transfers[a].wanted = false) (code : Sense) :
    s.abandonTransfer a code = s.setTransfer a Transfer.released := by
  obtain ⟨hno, -⟩ | ⟨-, heq⟩ := s.abandonTransfer_cases a code
  · rw [h] at hno
    cases hno
  · exact heq

theorem State.abandonTransfer_transfers (s : State) (a : Fin 8) (code : Sense) :
    (s.abandonTransfer a code).transfers = s.transfers.set a Transfer.released := by
  obtain ⟨-, h⟩ | ⟨-, h⟩ := s.abandonTransfer_cases a code <;> rw [h] <;> rfl

/-- The record of an answered SERVICE. -/
theorem responseRecord_service_replied {reply : List Byte} (h : reply.length < 256) (discard truncated : Bool) :
    responseRecord RequestCode.service.code false .none (responseFlags discard truncated) reply =
      [0x0E, 0, 0, (if discard then 1 else 0) + (if truncated then 2 else 0), BitVec.ofNat 8 reply.length] ++ reply := by
  unfold responseRecord
  rw [field_one h]
  cases discard <;> cases truncated <;> rfl

/-- A transfer answered with its response wanted: the reply released (R165). -/
def State.replied (s : State) (a : Fin 8) (t : Transfer) : State :=
  { s with
    transfers := s.transfers.set a Transfer.released,
    rack := { s.rack with
      discard := false,
      transaction := .sending ([0x0E, 0, 0, (if s.rack.discard then 1 else 0) + (if t.truncated then 2 else 0),
        BitVec.ofNat 8 t.reply.length] ++ t.reply) 0 false } }

theorem State.releaseReply_wanted {s : State} {a : Fin 8} {t : Transfer} (h : t.wanted = true)
    (hlength : t.reply.length < 256) : s.releaseReply a t = s.replied a t := by
  obtain ⟨-, heq⟩ | ⟨hno, -⟩ := s.releaseReply_cases a t
  · have hrecord := responseRecord_service_replied hlength s.rack.discard t.truncated
    rw [heq]
    unfold State.replied
    rw [← hrecord]
    rfl
  · rw [h] at hno
    cases hno

theorem State.releaseReply_unwanted {s : State} {a : Fin 8} {t : Transfer} (h : t.wanted = false) :
    s.releaseReply a t = s.setTransfer a Transfer.released := by
  obtain ⟨hno, -⟩ | ⟨-, heq⟩ := s.releaseReply_cases a t
  · rw [h] at hno
    cases hno
  · exact heq

theorem State.releaseReply_transfers (s : State) (a : Fin 8) (t : Transfer) :
    (s.releaseReply a t).transfers = s.transfers.set a Transfer.released := by
  obtain ⟨-, h⟩ | ⟨-, h⟩ := s.releaseReply_cases a t <;> rw [h] <;> rfl

/-! ## A period event with its windows closed -/

theorem State.cutWindows_of_closed {s : State} (h : s.trunk.answering = false) : ∀ n, s.cutWindows n = s
  | 0 => rfl
  | n + 1 => by
    unfold State.cutWindows
    exact if_neg (by rw [h]; nofun)

/-- The state at an event of source INTERNAL that does not take the link DOWN (R5, R9). -/
def State.risen (s : State) : State :=
  { s with timebase := { s.timebase with internal := true },
           rack := { s.rack with silence := if s.rack.up then s.rack.silence + 1 else s.rack.silence } }

theorem State.internalPeriod_of_quiet {s : State} (h : s.rack.up = false ∨ s.rack.silence + 1 < s.config.linkLossLimit) :
    s.internalPeriod = s.risen.periodEvent := by
  have hrise : State.silenceRise { s with timebase := { s.timebase with internal := true } } = s.risen := by
    unfold State.silenceRise State.risen
    by_cases hup : s.rack.up = true
    · have hnot : ¬ State.linkLossDue { s with timebase := { s.timebase with internal := true } } = true := by
        unfold State.linkLossDue
        show ¬ (s.rack.up && decide (s.config.linkLossLimit ≤ s.rack.silence + 1)) = true
        rcases h with h | h
        · rw [h]; nofun
        · rw [decide_eq_false (by omega), Bool.and_false]; nofun
      rw [if_neg hnot]
      show (if s.rack.up = true then _ else _) = _
      rw [if_pos hup, if_pos hup]
      rfl
    · have hnot : ¬ State.linkLossDue { s with timebase := { s.timebase with internal := true } } = true := by
        unfold State.linkLossDue
        show ¬ (s.rack.up && decide (s.config.linkLossLimit ≤ s.rack.silence + 1)) = true
        rw [eq_false_of_ne_true hup]; nofun
      rw [if_neg hnot]
      show (if s.rack.up = true then _ else _) = _
      rw [if_neg hup, if_neg hup]
  unfold State.internalPeriod
  rw [hrise]

theorem exec_timebaseInternalPeriod {s : State} (hpow : s.powered = true) (hinternal : s.timebase.internal = true)
    (h : s.rack.up = false ∨ s.rack.silence + 1 < s.config.linkLossLimit) :
    exec .timebaseInternalPeriod s =
      .next (s.at (s.timebase.lastEventUs + 1000 * s.timebase.periodMs)).risen.periodEvent := by
  refine congrArg Host.Outcome.next (((if_pos hpow).trans (if_pos hinternal)).trans ?_)
  exact State.internalPeriod_of_quiet h

/-- The state at an emission, the tables adopted and no assignment changed yet (R17). -/
def State.adopted (s : State) : State := s.freshSamples.modTrunk (fun t => t.adopt s.config.slotCount s.slotTable)

/-- The state at an emission after the changes of assignment (R30). -/
def State.reassigned (s : State) : State :=
  (List.finRange 64).foldl (State.changeAssignment (s.trunk.slotCount, s.trunk.table)) s.adopted

theorem State.emitFrame_eq (s : State) :
    s.emitFrame = (s.reassigned.modTrunk (fun t => { t with downstream := s.reassigned.trunkFrame })).advanceTransfers := rfl

/-- Without a change of assignment nothing happens between (R30). -/
theorem State.reassigned_of_same {s : State} (hcount : s.trunk.slotCount = s.config.slotCount)
    (htable : s.trunk.table = s.slotTable) : s.reassigned = s.adopted := by
  have hsame : ∀ i, s.adopted.changeAssignment (s.trunk.slotCount, s.trunk.table) i = s.adopted := fun i => by
    unfold State.changeAssignment
    refine if_pos ?_
    rw [hcount, htable]
    rfl
  unfold State.reassigned
  generalize List.finRange 64 = l
  induction l with
  | nil => rfl
  | cons i l ih => rw [List.foldl_cons, hsame, ih]

theorem State.advanceTransfers_transfers (s : State) (a : Fin 8) : s.advanceTransfers.transfers[a] = s.transfers[a].advance :=
  Vector.getElem_ofFn _

/-- The service fields of a slot through which at most one transfer can run (R20). -/
theorem State.serviceFields_of_only {s : State} {i : Fin 64} {a : Fin 8} (hslot : s.transfers[a].slot = i)
    (hothers : ∀ b : Fin 8, b ≠ a → s.transfers[b].phase = .idle ∨ s.transfers[b].slot ≠ i) :
    s.serviceFields i = s.transfers[a].fields := by
  have honly : ∀ b : Fin 8, (s.transfers[b].inFlight && s.transfers[b].slot == i) = true → b = a := fun b hb => by
    by_contra hne
    obtain ⟨hflight, heq⟩ := Bool.and_eq_true_iff.1 hb
    rcases hothers b hne with hidle | hother
    · unfold Transfer.inFlight at hflight
      rw [hidle] at hflight
      cases hflight
    · exact hother (beq_iff_eq.1 heq)
  unfold State.serviceFields
  cases hfind : allArms.find? (fun b => s.transfers[b].inFlight && s.transfers[b].slot == i) with
  | some b => rw [honly b (List.find?_some (p := fun b : Fin 8 => s.transfers[b].inFlight && s.transfers[b].slot == i) hfind)]
  | none =>
    have hidle := List.find?_eq_none.1 hfind a (mem_allArms a)
    rw [hslot, beq_self_eq_true, Bool.and_true] at hidle
    unfold Transfer.fields
    cases hphase : s.transfers[a].phase with
    | idle => rfl
    | request => exact absurd (by unfold Transfer.inFlight; rw [hphase]; rfl) hidle
    | reply => exact absurd (by unfold Transfer.inFlight; rw [hphase]; rfl) hidle

theorem Transfer.fields_lt (t : Transfer) : t.fields.1 < 256 := by
  unfold Transfer.fields
  split
  · exact (by decide : 0 < 256)
  · split
    · exact BitVec.isLt _
    · unfold boolNum
      dsimp only
      split <;> decide
  · exact Nat.mod_lt _ (by decide)

/-- The next state of an INTERNAL event that finds the windows closed and changes no assignment (R5, R9, R17). -/
theorem exec_quietPeriod {s : State} (h : s.QuietPeriod) : ∃ u t : State, exec .timebaseInternalPeriod s = .next t ∧
    u.transfers = s.transfers ∧ u.trunk.slotCount = s.trunk.slotCount ∧ t.trunk.downstream = u.trunkFrame ∧
    ∀ a : Fin 8, t.transfers[a] = s.transfers[a].advance := by
  obtain ⟨hpow, hinternal, hquiet, ⟨hclosed, hcount, htable⟩, -⟩ := h
  have hreassigned := State.reassigned_of_same
    (s := (s.at (s.timebase.lastEventUs + 1000 * s.timebase.periodMs)).risen) hcount htable
  have hexec := exec_timebaseInternalPeriod hpow hinternal hquiet
  unfold State.periodEvent at hexec
  rw [State.cutWindows_of_closed (by exact hclosed)] at hexec
  refine ⟨State.reassigned _, _, hexec, by rw [hreassigned]; rfl, by rw [hreassigned]; exact hcount.symm, rfl, fun a => ?_⟩
  refine (State.advanceTransfers_transfers _ a).trans ?_
  show (State.reassigned _).transfers[a].advance = _
  rw [hreassigned]
  rfl


/-! ## A reply byte -/

theorem Transfer.takeByte_wanted (t : Transfer) (b : Byte) : (t.takeByte b).wanted = t.wanted := by
  unfold Transfer.takeByte
  split <;> rfl

/-- The channel and the transfers after a valid word of a slot that is not the last of the frame (R24, R165). -/
theorem exec_answerWindowClose_relay {s : State} {i : Fin 64} {a : Fin 8} {r : Role} {w : List Byte}
    (hopen : s.WindowOpen i a r) (hlast : i.val + 1 < s.trunk.slotCount) (hgood : wordGood w)
    (hfresh : s.trunk.slots[i].toggle ≠ some (wordToggle w)) :
    ∃ u t : State, exec (.answerWindowClose w) s = .next t ∧ u.transfers = s.transfers ∧ u.rack = s.rack ∧
      t.transfers = (u.serviceWord a i (wordServiceByte w) (wordService w)).transfers ∧
      t.rack = (u.serviceWord a i (wordServiceByte w) (wordService w)).rack := by
  have hexec := exec_answerWindowClose_assigned hopen w
  dsimp only at hexec
  rw [if_neg (by omega), State.closeAssigned_valid hgood (by exact hfresh)] at hexec
  have hside := fun v : State => FieldSide.settleAtClose v i a r
  refine ⟨_, _, hexec, ?_, ?_, (hside _).transfers, (hside _).rack⟩
  · split_ifs
    · rfl
    · exact (FieldSide.handOver _ a r w).transfers
  · split_ifs
    · rfl
    · exact (FieldSide.handOver _ a r w).rack

/-- Settles O51: the timeout by `State.abandonTransfer`, the request bytes by the slot's word at a quiet emission, the reply
bytes by `State.serviceWord`. -/
theorem serviceTimesOut : Obligations.ServiceTimesOut := by
  refine ⟨fun s a hpow hphase hage => ?_, fun s a hquiet hslot hothers => ?_, fun s i a r w hopen hlast hgood hfresh => ?_⟩
  · have hout : s.transfers[a].timesOut = true := by
      unfold Transfer.timesOut
      rw [hphase, decide_eq_true (by show 100 ≤ _; omega)]
      rfl
    have htransfers := s.abandonTransfer_transfers a .serviceTimeout
    refine ⟨s.abandonTransfer a .serviceTimeout, congrArg Host.Outcome.next ((if_pos hpow).trans (if_pos hout)), ?_,
      fun b hb => ?_, fun hno => ?_, fun hwanted => ?_⟩
    · rw [htransfers, get_set_self]
      rfl
    · rw [htransfers, get_set_ne _ _ _ _ (Ne.symm hb)]
    · rw [State.abandonTransfer_unwanted hno]
      rfl
    · rw [State.abandonTransfer_wanted hwanted]
      rfl
  · obtain ⟨u, t, hexec, htransfers, hcount, hdown, hadvance⟩ := exec_quietPeriod hquiet
    obtain ⟨-, -, -, -, hcounts⟩ := hquiet
    refine ⟨t, hexec, ?_⟩
    intro x word shows
    have hword : word = u.slotWord x.slot := by
      rw [← State.trunkFrame_word (by rw [hcount]; exact hcounts) (by rw [hcount]; exact hslot), ← hdown]
    have hfields : u.serviceFields x.slot = x.fields := by
      have hu := State.serviceFields_of_only (s := u) (i := x.slot) (a := a) (by rw [htransfers])
        (fun b hb => by rw [htransfers]; exact hothers b hb)
      rw [hu, htransfers]
    have hshows : ∀ v f, x.fields = (v, f) → word.getD 4 0 = BitVec.ofNat 8 v ∧ (word.getD 1 0).getLsbD 1 = f.start ∧
        (word.getD 1 0).getLsbD 2 = f.fin ∧ (word.getD 1 0).getLsbD 3 = f.active := fun v f hf => by
      rw [hword]
      refine State.slotWord_service (hfields.trans hf) ?_
      have := x.fields_lt
      rwa [hf] at this
    have hnext : t.transfers[a] = x.advance := hadvance a
    have hbyte : ∀ b : Byte, BitVec.ofNat 8 b.toNat = b := fun b => by rw [BitVec.ofNat_toNat, BitVec.setWidth_eq]
    rw [hnext]
    unfold Transfer.fields at hshows
    unfold Transfer.advance
    refine ⟨fun hphase hclass => ?_, fun hphase hclass hmore => ?_, fun hphase hclass hend => ?_, fun hphase => ?_,
      fun hphase => ?_⟩
    · simp only [hphase, hclass] at hshows ⊢
      refine ⟨?_, rfl⟩
      have := hshows _ _ rfl
      cases hwrite : x.write <;> rw [hwrite] at this <;> exact this
    · simp only [hphase, hclass, if_true] at hshows ⊢
      rw [if_neg (by omega)]
      refine ⟨?_, rfl⟩
      have := hshows _ _ rfl
      rw [hbyte, decide_eq_false (by omega)] at this
      exact this
    · simp only [hphase, hclass, if_true] at hshows ⊢
      rw [if_pos (by omega)]
      refine ⟨?_, rfl⟩
      have := hshows _ _ rfl
      rw [hbyte, decide_eq_true (by omega)] at this
      exact this
    · simp only [hphase] at hshows ⊢
      refine ⟨?_, trivial⟩
      have := hshows _ _ rfl
      rwa [show BitVec.ofNat 8 (x.count % 256) = BitVec.ofNat 8 x.count from BitVec.eq_of_toNat_eq (by simp)] at this
    · simp only [hphase] at hshows ⊢
      obtain ⟨hzero, hstart, hfin, hactive⟩ := hshows _ _ rfl
      refine ⟨trivial, hzero, ?_⟩
      rintro j (rfl | rfl | rfl)
      · exact hstart
      · exact hfin
      · exact hactive
  · obtain ⟨u, t, hexec, hutransfers, hurack, htransfers, hrack⟩ := exec_answerWindowClose_relay hopen hlast hgood hfresh
    refine ⟨t, hexec, ?_⟩
    intro x taken
    have htaken : u.transfers[a].takeByte (wordServiceByte w) = taken := by rw [hutransfers]; rfl
    have hux : u.transfers[a] = x := by rw [hutransfers]
    unfold State.serviceWord at htransfers hrack
    dsimp only at htransfers hrack
    rw [htaken, hux] at htransfers hrack
    by_cases hreply : x.phase = .reply ∧ x.slot = i ∧ (wordService w).active = true
    · rw [if_pos hreply] at htransfers hrack
      have hset : ∃ y, t.transfers = u.transfers.set a y := by
        rw [htransfers]
        split_ifs
        · exact ⟨_, u.releaseReply_transfers a taken⟩
        · exact ⟨_, rfl⟩
      refine ⟨fun b hb => ?_, fun hno => ?_, fun hphase hslot hactive => ⟨fun hmore => ?_, fun hend => ?_⟩⟩
      · obtain ⟨y, hy⟩ := hset
        rw [hy, get_set_ne _ _ _ _ (Ne.symm hb), hutransfers]
      · obtain ⟨hphase, hslot, hactive⟩ := hreply
        rcases hno with hno | hno | hno
        · exact absurd hphase hno
        · exact absurd hslot hno
        · exact absurd hactive (by show ¬ (w.getD 0 0).getLsbD 3 = true; rw [hno]; nofun)
      · rw [if_neg (by show ¬ (w.getD 0 0).getLsbD 2 = true; rw [hmore]; nofun)] at htransfers hrack
        rw [htransfers, hrack]
        exact ⟨get_set_self _ _ _, hurack⟩
      · rw [if_pos (by exact hend)] at htransfers hrack
        have hwanted : taken.wanted = x.wanted := by rw [← htaken, Transfer.takeByte_wanted, hux]
        rw [htransfers, u.releaseReply_transfers a taken, get_set_self]
        refine ⟨rfl, rfl, fun hno => ?_, fun hyes hlength => ?_⟩
        · rw [hrack, State.releaseReply_unwanted (hwanted.trans hno)]
          exact hurack
        · rw [hrack, State.releaseReply_wanted (hwanted.trans hyes) hlength]
          unfold State.replied
          dsimp only
          rw [hurack]
    · rw [if_neg hreply] at htransfers hrack
      refine ⟨fun b _ => by rw [htransfers, hutransfers], fun _ => ⟨by rw [htransfers, hutransfers], hrack.trans hurack⟩,
        fun hphase hslot hactive => absurd ⟨hphase, hslot, hactive⟩ hreply⟩

end Sys2Proof.Machine
end

section
/-! PROOFS. SLOT_LOST and a change of assignment: what one slot-lost event does, and what is left of it at the end of the
emission (R26, R30, R43, R95, R166). -/

namespace Sys2Proof.Machine

/-! ## One slot-lost event -/

section
variable (s : State) (i : Fin 64) (a : Fin 8) (r : Role)

theorem State.serviceSlotLost_of_other (h : s.transfers[a].inFlight = false ∨ s.transfers[a].slot ≠ i) :
    s.serviceSlotLost a i = s := by
  refine if_neg fun ⟨hflight, hslot⟩ => ?_
  rcases h with h | h
  · rw [h] at hflight
    cases hflight
  · exact h hslot

theorem State.serviceSlotLost_of_transfer (hflight : s.transfers[a].inFlight = true) (hslot : s.transfers[a].slot = i) :
    s.serviceSlotLost a i = s.abandonTransfer a .deviceAbsent := if_pos ⟨hflight, hslot⟩

theorem State.serviceSlotLost_eq : s.serviceSlotLost a i =
    { s with arms := (s.serviceSlotLost a i).arms, transfers := (s.serviceSlotLost a i).transfers,
             rack := (s.serviceSlotLost a i).rack } := by
  unfold State.serviceSlotLost
  split_ifs
  · obtain ⟨-, h⟩ | ⟨-, h⟩ := s.abandonTransfer_cases a .deviceAbsent <;> rw [h] <;> rfl
  · rfl

/-- The loss reaches the arm and the relay, then marks a meter (R43). -/
theorem State.slotLostEvent_eq : s.slotLostEvent i a r =
    { (s.modArm a (fun x => x.slotLost r)).serviceSlotLost a i with meters := (s.slotLostEvent i a r).meters } := by
  unfold State.slotLostEvent
  dsimp only
  split
  · rfl
  · next p _ => cases p <;> rfl

theorem State.slotLostEvent_arm_rack_transfers :
    let u := (s.modArm a (fun x => x.slotLost r)).serviceSlotLost a i
    (∀ b, (s.slotLostEvent i a r).arm b = u.arm b) ∧ (s.slotLostEvent i a r).rack = u.rack ∧
    (s.slotLostEvent i a r).transfers = u.transfers := by
  intro u
  rw [State.slotLostEvent_eq]
  exact ⟨fun _ => rfl, rfl, rfl⟩

theorem Role.meterPos_eq_some {r : Role} {p : StreamPos} : r.meterPos = some p ↔ r = StreamPos.meterRole p := by
  cases r <;> cases p <;> simp [Role.meterPos, StreamPos.meterRole]

theorem State.slotLostEvent_meter (b : Fin 8) (p : StreamPos) : (s.slotLostEvent i a r).meter b p =
    if b = a ∧ r = StreamPos.meterRole p then { s.meter b p with lost := true } else s.meter b p := by
  have hkept : ∀ (b : Fin 8) (p : StreamPos),
      ((s.modArm a (fun x => x.slotLost r)).serviceSlotLost a i).meter b p = s.meter b p := fun b p => by
    refine State.meter_of_meters ?_ b p
    rw [State.serviceSlotLost_eq]
    rfl
  unfold State.slotLostEvent
  dsimp only
  cases hpos : r.meterPos with
  | none =>
    rw [if_neg fun ⟨_, hr⟩ => by rw [Role.meterPos_eq_some.2 hr] at hpos; cases hpos]
    exact hkept b p
  | some q =>
    obtain rfl := Role.meterPos_eq_some.1 hpos
    dsimp only
    unfold State.modMeter
    rw [State.meter_setMeter, hkept, hkept]
    by_cases h : a = b ∧ q = p
    · obtain ⟨rfl, rfl⟩ := h
      rw [if_pos ⟨rfl, rfl⟩, if_pos ⟨rfl, rfl⟩]
      rfl
    · rw [if_neg h, if_neg fun ⟨hb, hp⟩ => h ⟨hb.symm, by cases q <;> cases p <;> cases hp <;> rfl⟩]

theorem State.slotLostEvent_transfers (b : Fin 8) : (s.slotLostEvent i a r).transfers[b] =
    if b = a ∧ s.transfers[a].inFlight = true ∧ s.transfers[a].slot = i then Transfer.released else s.transfers[b] := by
  rw [(s.slotLostEvent_arm_rack_transfers i a r).2.2]
  by_cases h : s.transfers[a].inFlight = true ∧ s.transfers[a].slot = i
  · rw [State.serviceSlotLost_of_transfer (s.modArm a (fun x => x.slotLost r)) i a (by exact h.1) (by exact h.2),
      State.abandonTransfer_transfers]
    by_cases hb : b = a
    · subst hb
      rw [get_set_self, if_pos ⟨rfl, h⟩]
    · rw [get_set_ne _ _ _ _ (Ne.symm hb), if_neg fun hn => hb hn.1]
      rfl
  · rw [State.serviceSlotLost_of_other (s.modArm a (fun x => x.slotLost r)) i a, if_neg fun hn => h hn.2]
    · rfl
    · by_cases hflight : s.transfers[a].inFlight = true
      · exact .inr fun hs => h ⟨hflight, hs⟩
      · exact .inl (eq_false_of_ne_true hflight)

theorem State.slotLostEvent_arm_ne {b : Fin 8} (hb : b ≠ a) : (s.slotLostEvent i a r).arm b = s.arm b := by
  rw [(s.slotLostEvent_arm_rack_transfers i a r).1]
  refine Eq.trans ?_ (s.arm_modArm_ne (fun x => x.slotLost r) (Ne.symm hb))
  unfold State.serviceSlotLost
  split_ifs
  · exact (State.abandonTransfer_keeps _ a .deviceAbsent).2.2.2.2.2 b hb
  · rfl

/-- The arm takes the loss, and the sense code of a transfer that ends (R95, R166). -/
theorem State.slotLostEvent_arm : ∃ c : Sense, (s.slotLostEvent i a r).arm a = { (s.arm a).slotLost r with sense := c } := by
  have hown : (s.modArm a (fun x => x.slotLost r)).arm a = (s.arm a).slotLost r := s.arm_modArm_self a _
  rw [(s.slotLostEvent_arm_rack_transfers i a r).1]
  unfold State.serviceSlotLost
  split_ifs
  · obtain ⟨-, h⟩ | ⟨-, h⟩ := (s.modArm a (fun x => x.slotLost r)).abandonTransfer_cases a .deviceAbsent
    · refine ⟨.deviceAbsent, ?_⟩
      rw [h, State.modRack_arm, State.arm_modArm_self]
      exact congrArg (fun x : Arm => x.note .deviceAbsent) hown
    · refine ⟨((s.arm a).slotLost r).sense, ?_⟩
      rw [h]
      exact hown
  · exact ⟨((s.arm a).slotLost r).sense, hown⟩

/-- A loss that ends no wanted transfer leaves the rack link (R166). -/
theorem State.slotLostEvent_rack (h : s.transfers[a].wanted = true → s.transfers[a].slot ≠ i) :
    (s.slotLostEvent i a r).rack = s.rack := by
  rw [(s.slotLostEvent_arm_rack_transfers i a r).2.1]
  unfold State.serviceSlotLost
  split_ifs with hflight
  · rw [State.abandonTransfer_unwanted]
    · rfl
    · by_contra hw
      exact h (eq_true_of_ne_false hw) hflight.2
  · rfl

end

/-! ## The loss at the arm -/

theorem Arm.needsRole_iff {x : Arm} {r : Role} : x.needsRole r = true ↔ ∃ c, x.ctx = some c ∧ needs c.recipe r := by
  unfold Arm.needsRole
  cases x.ctx with
  | none => exact ⟨nofun, nofun⟩
  | some c =>
    rw [List.contains_iff_mem, mem_neededRoles]
    exact ⟨fun h => ⟨c, rfl, h⟩, fun ⟨d, hd, h⟩ => by cases hd; exact h⟩

theorem Arm.slotLost_takes {x : Arm} {r : Role} (h : ∃ c, x.ctx = some c ∧ needs c.recipe r) :
    x.Takes (x.slotLost r) .deviceLost := by
  unfold Arm.slotLost
  rw [if_pos (Arm.needsRole_iff.2 h)]
  exact x.takes_raiseCause .deviceLost

theorem Arm.slotLost_of_other {x : Arm} {r : Role} (h : ∀ c, x.ctx = some c → ¬ needs c.recipe r) : x.slotLost r = x :=
  if_neg fun hn => by
    obtain ⟨c, hc, hneeds⟩ := Arm.needsRole_iff.1 hn
    exact h c hc hneeds

theorem exec_slotLost {s : State} {i : Fin 64} {a : Fin 8} {r : Role} (hpow : s.powered = true)
    (hlt : i.val < s.trunk.slotCount) (htable : s.trunk.table[i] = { arm := a, role := r }) (hr : r ≠ .unused)
    (hup : s.trunk.slots[i].up = true) (hcount : 25 ≤ s.trunk.slots[i].invalids + 1) :
    exec (.slotLost i) s =
      .next ((s.setSlot i { s.trunk.slots[i] with invalids := 25, up := false }).slotLostEvent i a r) := by
  refine congrArg Host.Outcome.next ((if_pos hpow).trans ?_)
  have hassigned : s.frameAssignment i = some (a, r) := assignment_eq_some.2 ⟨hlt, hr, htable⟩
  dsimp only
  rw [hassigned]
  exact if_pos (by rw [SlotRx.losesNext, hup]; exact decide_eq_true hcount)


/-! ## The changes of assignment (R30) -/

/-- A fold whose steps keep one property until its own step, and another one afterwards. -/
theorem foldl_reaches {ι : Type} {f : State → ι → State} {P Q : State → Prop} {i : ι}
    (hbefore : ∀ t j, j ≠ i → P t → P (f t j)) (hown : ∀ t, P t → Q (f t i)) (hafter : ∀ t j, Q t → Q (f t j))
    {l : List ι} (hnodup : l.Nodup) (hi : i ∈ l) {s : State} (hs : P s) : Q (l.foldl f s) := by
  have hkept : ∀ (m : List ι) (t : State), Q t → Q (m.foldl f t) := fun m => by
    induction m with
    | nil => exact fun _ h => h
    | cons j m ih => exact fun t h => ih _ (hafter t j h)
  induction l generalizing s with
  | nil => cases hi
  | cons j l ih =>
    rw [List.nodup_cons] at hnodup
    rw [List.foldl_cons]
    rcases List.mem_cons.1 hi with rfl | hmem
    · exact hkept l _ (hown s hs)
    · exact ih hnodup.2 hmem (hbefore s j (fun h => hnodup.1 (h ▸ hmem)) hs)

/-- What holds after each of the three outcomes of a slot's change of assignment holds after it. -/
theorem State.changeAssignment_of {P : State → Prop} {old : Nat × Vector SlotEntry 64} {s : State} {i : Fin 64} (hsame : P s)
    (hset : P (s.setSlot i SlotRx.unassigned))
    (hlost : ∀ a r, P ((s.setSlot i SlotRx.unassigned).slotLostEvent i a r)) : P (s.changeAssignment old i) := by
  unfold State.changeAssignment
  dsimp only
  split_ifs
  · exact hsame
  · split
    · exact hset
    · exact hlost _ _
  · split
    · exact hset
    · exact hset

/-- The trunk after a slot's change of assignment. -/
theorem State.changeAssignment_trunk (old : Nat × Vector SlotEntry 64) (s : State) (i : Fin 64) :
    (s.changeAssignment old i).trunk =
      if assignment old.1 old.2 i = s.frameAssignment i then s.trunk
      else { s.trunk with slots := s.trunk.slots.set i SlotRx.unassigned } := by
  unfold State.changeAssignment
  dsimp only
  by_cases h : assignment old.1 old.2 i = s.frameAssignment i
  · rw [if_pos h, if_pos h]
  · rw [if_neg h, if_neg h]
    split
    · rfl
    · split_ifs
      · exact State.slotLostEvent_trunk _ _ _ _
      · rfl

theorem State.changeAssignment_frameAssignment (old : Nat × Vector SlotEntry 64) (s : State) (i j : Fin 64) :
    (s.changeAssignment old i).frameAssignment j = s.frameAssignment j := by
  unfold State.frameAssignment
  rw [State.changeAssignment_trunk]
  split_ifs <;> rfl

theorem State.changeAssignment_slots (old : Nat × Vector SlotEntry 64) (s : State) {i j : Fin 64} (h : i ≠ j) :
    (s.changeAssignment old i).trunk.slots[j] = s.trunk.slots[j] := by
  rw [State.changeAssignment_trunk]
  split_ifs
  · rfl
  · exact get_set_ne _ _ _ _ h

/-- The trunk of an emission after the changes of assignment keeps all but its slots. -/
theorem State.reassigned_trunk (s : State) :
    s.reassigned.trunk = { s.adopted.trunk with slots := s.reassigned.trunk.slots } := by
  have hstep : ∀ (old : Nat × Vector SlotEntry 64) (t : State) (i : Fin 64),
      ({ (t.changeAssignment old i).trunk with slots := s.trunk.slots } : Trunk) = { t.trunk with slots := s.trunk.slots } :=
    fun old t i => by
      rw [State.changeAssignment_trunk]
      split_ifs <;> rfl
  have hall := foldl_keeps (fun t : State => ({ t.trunk with slots := s.trunk.slots } : Trunk))
    (hstep (s.trunk.slotCount, s.trunk.table)) (List.finRange 64) s.adopted
  exact congrArg (fun t : Trunk => { t with slots := s.reassigned.trunk.slots }) hall

/-- A slot's receive state after the changes of assignment (R30). -/
theorem State.reassigned_slots (s : State) (i : Fin 64) : s.reassigned.trunk.slots[i] =
    if assignment s.trunk.slotCount s.trunk.table i = assignment s.config.slotCount s.slotTable i then s.trunk.slots[i]
    else SlotRx.unassigned := by
  obtain ⟨before, hheld, hown⟩ := foldl_own (fun t (j : Fin 64) => t.trunk.slots[j])
    (f := State.changeAssignment (s.trunk.slotCount, s.trunk.table))
    (fun t j k h => State.changeAssignment_slots _ t (Ne.symm h)) (List.nodup_finRange 64) s.adopted (List.mem_finRange i)
  have hassignment : (before.foldl (State.changeAssignment (s.trunk.slotCount, s.trunk.table)) s.adopted).frameAssignment i =
      assignment s.config.slotCount s.slotTable i :=
    foldl_keeps (fun t : State => t.frameAssignment i) (fun t j => State.changeAssignment_frameAssignment _ t j i) before
      s.adopted
  refine hown.trans ?_
  rw [State.changeAssignment_trunk, hassignment]
  split_ifs
  · exact hheld
  · exact get_set_self _ _ _

/-- What a changed slot that was UP leads to: what its slot-lost event brings about and no later one undoes. -/
theorem State.reassigned_reaches {s : State} {i : Fin 64} {a : Fin 8} {r : Role} {P Q : State → Prop}
    (hold : assignment s.trunk.slotCount s.trunk.table i = some (a, r))
    (hnew : assignment s.config.slotCount s.slotTable i ≠ some (a, r)) (hup : s.trunk.slots[i].up = true)
    (hslot : ∀ t j x, P t → P (t.setSlot j x)) (hbefore : ∀ t j b q, j ≠ i → P t → P (t.slotLostEvent j b q))
    (hown : ∀ t, P t → Q (t.slotLostEvent i a r)) (hslot' : ∀ t j x, Q t → Q (t.setSlot j x))
    (hafter : ∀ t j b q, Q t → Q (t.slotLostEvent j b q)) (hs : P s.adopted) : Q s.reassigned := by
  refine foldl_reaches (f := State.changeAssignment (s.trunk.slotCount, s.trunk.table)) (i := i) (Q := Q)
    (P := fun t => P t ∧ t.frameAssignment i = assignment s.config.slotCount s.slotTable i ∧
      t.trunk.slots[i] = s.trunk.slots[i])
    (fun t j hj h => ⟨?_, ?_, ?_⟩) (fun t h => ?_) (fun t j h => ?_) (List.nodup_finRange 64) (List.mem_finRange i)
    ⟨hs, rfl, rfl⟩
  · exact State.changeAssignment_of h.1 (hslot t j _ h.1) (fun b q => hbefore _ j b q hj (hslot t j _ h.1))
  · rw [State.changeAssignment_frameAssignment]
    exact h.2.1
  · rw [State.changeAssignment_slots _ _ hj]
    exact h.2.2
  · obtain ⟨hP, hassignment, hrx⟩ := h
    have hlost : t.changeAssignment (s.trunk.slotCount, s.trunk.table) i =
        (t.setSlot i SlotRx.unassigned).slotLostEvent i a r := by
      unfold State.changeAssignment
      dsimp only
      rw [hold, hassignment, if_neg (Ne.symm hnew), hrx]
      exact if_pos hup
    rw [hlost]
    exact hown _ (hslot t i _ hP)
  · exact State.changeAssignment_of h (hslot' t j _ h) (fun b q => hafter _ j b q (hslot' t j _ h))


/-- The segment of the upstream frame, at its place (R6, R15). -/
theorem State.upstreamFrame_segment (s : State) :
    let seg := s.rack.transaction.segment
    ∃ check, s.upstreamFrame.drop 167 = field 1 seg.1 ++ (field 1 seg.2.1.length ++ (seg.2.1 ++ check)) := by
  obtain ⟨body, images, -, -, -, h3, himages, -⟩ := s.upstreamFrame_parts
  have hstatus : s.statusBlock.length = 4 := by
    unfold State.statusBlock
    simp only [List.length_append, field_length]
  exact ⟨checkBytes body, drop_after (o' := 167) (drop_after (o' := 7) h3 hstatus rfl) himages rfl⟩

/-- What the frames of a period event leave of the state after the changes of assignment. -/
theorem State.sendFrames_parts (s : State) :
    s.sendFrames.arms = s.reassigned.arms ∧ s.sendFrames.meters = s.reassigned.meters ∧
    (∀ a : Fin 8, s.sendFrames.transfers[a] = s.reassigned.transfers[a].advance) ∧
    s.sendFrames.trunk = { s.reassigned.trunk with downstream := s.reassigned.trunkFrame } ∧
    s.sendFrames.rack.upstream = s.emitFrame.upstreamFrame ∧
    s.sendFrames.rack.transaction = s.reassigned.rack.transaction.segment.2.2.1 ∧
    s.emitFrame.rack = s.reassigned.rack := by
  unfold State.sendFrames
  rw [State.emitFrame_eq]
  generalize s.reassigned = v
  exact ⟨rfl, rfl, fun a => State.advanceTransfers_transfers _ a, rfl, rfl, rfl, rfl⟩

/-! ## Settling O32 -/

/-- The batch is closing, ended by a lost device. -/
def Arm.LostClosing (x : Arm) : Prop := x.state = .closing ∧ x.endReason = some .deviceLost

theorem Arm.raiseCause_lostClosing {x : Arm} (h : x.state.flowing ∨ x.LostClosing) :
    (x.raiseCause .deviceLost).LostClosing ∧ (x.raiseCause .deviceLost).ctx = x.ctx := by
  obtain ⟨hflowing, hclosing, -⟩ := x.takes_raiseCause .deviceLost
  rcases h with h | ⟨hstate, hreason⟩
  · obtain ⟨hstate, hreason, -, -, -, -, -, -, -, -, -, -, hctx, -⟩ := hflowing h
    exact ⟨⟨hstate, hreason⟩, hctx⟩
  · have hsame := hclosing hstate
    rw [if_pos (.inl hreason)] at hsame
    rw [hsame]
    exact ⟨⟨hstate, hreason⟩, rfl⟩

/-- A further loss leaves a batch flowing or ended by a lost device, with its context. -/
theorem Arm.slotLost_keeps {x : Arm} {c : Context} {r : Role} (hctx : x.ctx = some c) (h : x.state.flowing ∨ x.LostClosing) :
    (x.slotLost r).ctx = some c ∧ ((x.slotLost r).state.flowing ∨ (x.slotLost r).LostClosing) := by
  unfold Arm.slotLost
  obtain ⟨hlost, hkept⟩ := Arm.raiseCause_lostClosing h
  split_ifs
  · exact ⟨hkept.trans hctx, .inr hlost⟩
  · exact ⟨hctx, h⟩

theorem Arm.slotLost_lostClosing {x : Arm} {r : Role} (h : x.LostClosing) : (x.slotLost r).LostClosing := by
  unfold Arm.slotLost
  split_ifs
  · exact (Arm.raiseCause_lostClosing (.inr h)).1
  · exact h

section
variable {s : State} {i : Fin 64} {a : Fin 8} {r : Role}
  (hold : assignment s.trunk.slotCount s.trunk.table i = some (a, r))
  (hnew : assignment s.config.slotCount s.slotTable i ≠ some (a, r)) (hup : s.trunk.slots[i].up = true)
include hold hnew hup

/-- The meter of a changed slot bears the lost mark (R43). -/
theorem State.reassigned_meter_lost {p : StreamPos} (hr : r = StreamPos.meterRole p) :
    (s.reassigned.meter a p).lost = true := by
  refine State.reassigned_reaches (P := fun _ => True) (Q := fun t => (t.meter a p).lost = true) hold hnew hup
    (fun _ _ _ _ => trivial) (fun _ _ _ _ _ _ => trivial) (fun t _ => ?_) (fun t j x h => ?_) (fun t j b q h => ?_) trivial
  · rw [State.slotLostEvent_meter, if_pos ⟨rfl, hr⟩]
  · exact (congrArg Meter.lost (State.meter_of_meters (s := t) (t := t.setSlot j x) rfl a p)).trans h
  · rw [State.slotLostEvent_meter]
    split_ifs
    · rfl
    · exact h

/-- A transfer through a changed slot has ended (R166). -/
theorem State.reassigned_transfer_idle (hflight : s.transfers[a].inFlight = true) (hslot : s.transfers[a].slot = i) :
    s.reassigned.transfers[a].phase = .idle := by
  refine State.reassigned_reaches (P := fun t => t.transfers[a] = s.transfers[a]) (Q := fun t => t.transfers[a].phase = .idle)
    hold hnew hup (fun _ _ _ h => h) (fun t j b q hj h => ?_) (fun t h => ?_) (fun _ _ _ h => h) (fun t j b q h => ?_) rfl
  · rw [State.slotLostEvent_transfers, if_neg fun ⟨hb, _, hs⟩ => hj (by rw [← hs, ← hb, h, hslot]), h]
  · rw [State.slotLostEvent_transfers, if_pos ⟨rfl, by rw [h]; exact hflight, by rw [h]; exact hslot⟩]
    rfl
  · rw [State.slotLostEvent_transfers]
    split_ifs
    · rfl
    · exact h

/-- The batch that needed a changed slot is closing (R95, R96). -/
theorem State.reassigned_lostClosing {c : Context} (hctx : (s.arm a).ctx = some c) (hneeds : needs c.recipe r)
    (hflowing : (s.arm a).state.flowing) : (s.reassigned.arm a).LostClosing := by
  have hevent : ∀ (t : State) (j : Fin 64) (b : Fin 8) (q : Role) (G : Arm → Prop), (∀ x k, G x → G { x with sense := k }) →
      (G (t.arm a) → G ((t.arm a).slotLost q)) → G (t.arm a) → G ((t.slotLostEvent j b q).arm a) :=
    fun t j b q G hsense hlost h => by
      by_cases hb : a = b
      · subst hb
        obtain ⟨k, hk⟩ := t.slotLostEvent_arm j a q
        rw [hk]
        exact hsense _ k (hlost h)
      · rw [t.slotLostEvent_arm_ne j b q hb]
        exact h
  refine State.reassigned_reaches
    (P := fun t => (t.arm a).ctx = some c ∧ ((t.arm a).state.flowing ∨ (t.arm a).LostClosing))
    (Q := fun t => (t.arm a).LostClosing) hold hnew hup (fun _ _ _ h => h) (fun t j b q _ h => ?_) (fun t h => ?_)
    (fun _ _ _ h => h) (fun t j b q h => ?_) ⟨hctx, .inl hflowing⟩
  · exact hevent t j b q (fun x => x.ctx = some c ∧ (x.state.flowing ∨ x.LostClosing)) (fun _ _ h => h)
      (fun h => Arm.slotLost_keeps h.1 h.2) h
  · obtain ⟨k, hk⟩ := t.slotLostEvent_arm i a r
    rw [hk]
    have hlost : (t.arm a).slotLost r = (t.arm a).raiseCause .deviceLost :=
      if_pos (Arm.needsRole_iff.2 ⟨c, h.1, hneeds⟩)
    rw [hlost]
    exact (Arm.raiseCause_lostClosing h.2).1
  · exact hevent t j b q Arm.LostClosing (fun _ _ h => h) Arm.slotLost_lostClosing h

/-- The refusal of a wanted transfer through a changed slot is ready for sending, and no later loss touches it (R166). -/
theorem State.reassigned_transaction (hheld : s.HeldMatches) (hwanted : s.transfers[a].wanted = true)
    (hslot : s.transfers[a].slot = i) : s.reassigned.rack.transaction =
      .sending [0x0E, 1, 11, if s.rack.discard then 1 else 0, 0] 0 false := by
  obtain ⟨hiff, hflight, -⟩ := hheld
  have hothers : ∀ b : Fin 8, b ≠ a → s.transfers[b].wanted = false := fun b hb => by
    by_contra hw
    have htransaction := (hiff b).1 (eq_true_of_ne_false hw)
    rw [(hiff a).1 hwanted] at htransaction
    cases htransaction
    exact hb rfl
  have hreleased : ∀ (t : State) (j : Fin 64) (b c : Fin 8) (q : Role), t.transfers[c].wanted = false →
      (t.slotLostEvent j b q).transfers[c].wanted = false := fun t j b c q h => by
    rw [State.slotLostEvent_transfers]
    split_ifs
    · rfl
    · exact h
  refine State.reassigned_reaches
    (P := fun t => t.rack = s.rack ∧ t.transfers[a] = s.transfers[a] ∧ ∀ b : Fin 8, b ≠ a → t.transfers[b].wanted = false)
    (Q := fun t => t.rack.transaction = .sending [0x0E, 1, 11, if s.rack.discard then 1 else 0, 0] 0 false ∧
      ∀ b : Fin 8, t.transfers[b].wanted = false) hold hnew hup (fun _ _ _ h => h) (fun t j b q hj h => ?_) (fun t h => ?_)
    (fun _ _ _ h => h) (fun t j b q h => ?_) ⟨rfl, rfl, hothers⟩ |>.1
  · obtain ⟨hrack, htransfer, hno⟩ := h
    refine ⟨?_, ?_, fun c hc => hreleased t j b c q (hno c hc)⟩
    · rw [State.slotLostEvent_rack, hrack]
      intro hw hs
      by_cases hb : b = a
      · subst hb
        exact hj (by rw [← hs, htransfer, hslot])
      · rw [hno b hb] at hw
        cases hw
    · rw [State.slotLostEvent_transfers, if_neg fun ⟨hb, _, hs⟩ => hj (by rw [← hs, ← hb, htransfer, hslot]), htransfer]
  · obtain ⟨hrack, htransfer, hno⟩ := h
    have hthrough : t.transfers[a].inFlight = true ∧ t.transfers[a].slot = i := by
      rw [htransfer]
      exact ⟨hflight a hwanted, hslot⟩
    refine ⟨?_, fun b => ?_⟩
    · rw [(t.slotLostEvent_arm_rack_transfers i a r).2.1,
        State.serviceSlotLost_of_transfer (t.modArm a (fun x => x.slotLost r)) i a (by exact hthrough.1) (by exact hthrough.2),
        State.abandonTransfer_wanted (by rw [State.modArm_transfers, htransfer]; exact hwanted)]
      show Transaction.sending [0x0E, 1, 11, if t.rack.discard then 1 else 0, 0] 0 false = _
      rw [hrack]
    · by_cases hb : b = a
      · rw [State.slotLostEvent_transfers, if_pos ⟨hb, hthrough⟩]
        rfl
      · exact hreleased t i a b r (hno b hb)
  · obtain ⟨htransaction, hno⟩ := h
    refine ⟨?_, fun c => hreleased t j b c q (hno c)⟩
    rw [State.slotLostEvent_rack t j b q (by rw [hno b]; nofun), htransaction]

end

/-- Settles O32: one loss by the parts of `State.slotLostEvent`, a change of assignment by what its event brings about and
no later one undoes. -/
theorem slotLostEffects : Obligations.SlotLostEffects := by
  refine ⟨fun s i a r hpow hlt htable hr hup hcount => ?_, fun s hpow hinternal hquiet hclosed => ?_⟩
  · have hexec := exec_slotLost hpow hlt htable hr hup hcount
    generalize hv : s.setSlot i { s.trunk.slots[i] with invalids := 25, up := false } = v at hexec
    have harms : ∀ b, v.arm b = s.arm b := fun b => by rw [← hv]; rfl
    have htransfers : v.transfers = s.transfers := by rw [← hv]; rfl
    have hrack : v.rack = s.rack := by rw [← hv]; rfl
    have hmeters : ∀ b p, v.meter b p = s.meter b p := fun b p => State.meter_of_meters (by rw [← hv]; rfl) b p
    obtain ⟨harm, hchannel, htransfer⟩ := v.slotLostEvent_arm_rack_transfers i a r
    have hmod : (v.modArm a (fun x => x.slotLost r)).arm a = (s.arm a).slotLost r := by
      rw [State.arm_modArm_self, harms]
    refine ⟨v.slotLostEvent i a r, (s.arm a).slotLost r, hexec, ?_, fun b p => ?_, fun b hb => ?_, Arm.slotLost_takes,
      Arm.slotLost_of_other, fun hother => ?_, fun hflight hslot => ⟨?_, fun b hb => ?_, fun hno => ?_, fun hwanted => ?_⟩⟩
    · have heq := v.slotLostEvent_eq i a r
      rw [State.serviceSlotLost_eq] at heq
      rw [heq, ← hv]
      rfl
    · rw [State.slotLostEvent_meter, hmeters]
    · rw [v.slotLostEvent_arm_ne i a r hb, harms]
    · have hkept := State.serviceSlotLost_of_other (v.modArm a (fun x => x.slotLost r)) i a
        (by rw [State.modArm_transfers, htransfers]; exact hother)
      rw [harm, hchannel, htransfer, hkept]
      exact ⟨hmod, htransfers, hrack⟩
    · rw [State.slotLostEvent_transfers, htransfers, if_pos ⟨rfl, hflight, hslot⟩]
      rfl
    · rw [State.slotLostEvent_transfers, htransfers, if_neg fun h => hb h.1]
    · have hend := State.serviceSlotLost_of_transfer (v.modArm a (fun x => x.slotLost r)) i a
        (by rw [State.modArm_transfers, htransfers]; exact hflight) (by rw [State.modArm_transfers, htransfers]; exact hslot)
      rw [harm, hchannel, hend, State.abandonTransfer_unwanted (by rw [State.modArm_transfers, htransfers]; exact hno)]
      exact ⟨hmod, hrack⟩
    · have hend := State.serviceSlotLost_of_transfer (v.modArm a (fun x => x.slotLost r)) i a
        (by rw [State.modArm_transfers, htransfers]; exact hflight) (by rw [State.modArm_transfers, htransfers]; exact hslot)
      rw [harm, hchannel, hend, State.abandonTransfer_wanted (by rw [State.modArm_transfers, htransfers]; exact hwanted)]
      refine ⟨?_, ?_⟩
      · rw [← hmod]
        exact get_set_self _ _ _
      · unfold State.abandoned
        dsimp only
        rw [State.modArm_rack, hrack]
        rfl
  · have hexec := exec_timebaseInternalPeriod hpow hinternal hquiet
    unfold State.periodEvent at hexec
    rw [State.cutWindows_of_closed (by exact hclosed)] at hexec
    generalize hu : (s.at (s.timebase.lastEventUs + 1000 * s.timebase.periodMs)).risen = u at hexec
    have htrunk : u.trunk = s.trunk := by rw [← hu]; rfl
    have hconfig : u.config = s.config := by rw [← hu]; rfl
    have htable : u.slotTable = s.slotTable := by rw [← hu]; rfl
    have htransfers : u.transfers = s.transfers := by rw [← hu]; rfl
    have harms : ∀ b, u.arm b = s.arm b := fun b => by rw [← hu]; rfl
    have hdiscard : u.rack.discard = s.rack.discard := by rw [← hu]; rfl
    have hheld : s.HeldMatches → u.HeldMatches := fun h => by rw [← hu]; exact h
    obtain ⟨hsentArms, hsentMeters, hsentTransfers, hsentTrunk, hsentFrame, hsentTransaction, hemitted⟩ := u.sendFrames_parts
    refine ⟨u.sendFrames, hexec, ?_, ?_, fun i => ?_⟩
    · rw [hsentTrunk, State.reassigned_trunk, ← hconfig]
      rfl
    · rw [hsentTrunk, State.reassigned_trunk, ← htable]
      rfl
    intro same
    have hsame : same ↔ assignment u.trunk.slotCount u.trunk.table i = assignment u.config.slotCount u.slotTable i := by
      rw [htrunk, hconfig, htable]
      refine ⟨fun h => Option.ext fun ⟨a, r⟩ => ?_, fun h a r => ?_⟩
      · exact assignment_eq_some.trans ((h a r).trans assignment_eq_some.symm)
      · rw [← assignment_eq_some, ← assignment_eq_some, h]
    have hslots := u.reassigned_slots i
    rw [← show u.sendFrames.trunk.slots = u.reassigned.trunk.slots by rw [hsentTrunk]] at hslots
    refine ⟨fun h => ?_, fun h => ?_, fun h hup a r hassigned => ?_⟩
    · rw [hslots, if_pos (hsame.1 h), htrunk]
    · rw [hslots, if_neg fun hn => h (hsame.2 hn)]
      rfl
    · have hold : assignment u.trunk.slotCount u.trunk.table i = some (a, r) := by
        rw [htrunk]
        exact assignment_eq_some.2 hassigned
      have hnew : assignment u.config.slotCount u.slotTable i ≠ some (a, r) := fun hn => h (hsame.2 (hold.trans hn.symm))
      have hupU : u.trunk.slots[i].up = true := by rw [htrunk]; exact hup
      refine ⟨fun p hp => ?_, fun hflight hslot => ⟨?_, fun hmatches hwanted => ?_⟩, fun c hctx hneeds hflowing => ?_⟩
      · rw [State.meter_of_meters hsentMeters]
        exact State.reassigned_meter_lost hold hnew hupU hp
      · have hidle := State.reassigned_transfer_idle hold hnew hupU (by rw [htransfers]; exact hflight)
          (by rw [htransfers]; exact hslot)
        rw [hsentTransfers]
        unfold Transfer.advance
        rw [hidle]
        exact hidle
      · have htransaction := State.reassigned_transaction hold hnew hupU (hheld hmatches) (by rw [htransfers]; exact hwanted)
          (by rw [htransfers]; exact hslot)
        rw [hdiscard] at htransaction
        have hseg : u.emitFrame.rack.transaction.segment =
            (4, [0x0E, 1, 11, if s.rack.discard then 1 else 0, 0], .none, false) := by
          rw [hemitted, htransaction]
          rfl
        refine ⟨?_, ?_⟩
        · rw [hsentTransaction, ← hemitted, hseg]
        · obtain ⟨check, hdrop⟩ := u.emitFrame.upstreamFrame_segment
          rw [hseg] at hdrop
          rw [hsentFrame, hdrop]
          show (field 1 4 ++ (field 1 5 ++ (_ ++ check))).take 7 = _
          rw [field_one (by decide), field_one (by decide)]
          rfl
      · have harm : u.sendFrames.arm a = u.reassigned.arm a := congrArg (fun v : Vector Arm 8 => v[a]) hsentArms
        rw [harm]
        exact State.reassigned_lostClosing hold hnew hupU (by rw [harms]; exact hctx) hneeds (by rw [harms]; exact hflowing)

end Sys2Proof.Machine
end

section
/-! PROOFS. The close of answer windows and the fall of the link do not read the moment, the last accepted frame, the link's
silence or the period events' source: they commute with a change of these (R5, R9, R21). -/

namespace Sys2Proof.Machine

/-- The moment, the link's own count and last frame, and the source of period events. -/
structure Moment where
  nowUs : Nat
  up : Bool
  silence : Nat
  last : Option LastFrame
  internal : Bool

/-- The state with another moment. -/
def State.moved (m : Moment) (s : State) : State :=
  { s with nowUs := m.nowUs, rack := { s.rack with up := m.up, silence := m.silence, last := m.last },
           timebase := { s.timebase with internal := m.internal } }

namespace State

/-- A branch commutes when both sides do. -/
theorem moved_ite {m : Moment} {c : Prop} [Decidable c] {t u t' u' : State} (h : t' = t.moved m) (k : u' = u.moved m) :
    (if c then t' else u') = (if c then t else u).moved m := by
  split
  · exact h
  · exact k

theorem moved_foldl {m : Moment} {β : Type} {f : State → β → State} (h : ∀ s x, f (s.moved m) x = (f s x).moved m)
    (l : List β) (s : State) : l.foldl f (s.moved m) = (l.foldl f s).moved m := by
  induction l generalizing s with
  | nil => rfl
  | cons x l ih =>
    rw [List.foldl_cons, List.foldl_cons, h]
    exact ih _

section
variable (m : Moment) (s : State)

theorem moved_meter (a : Fin 8) (p : StreamPos) : (s.moved m).meter a p = s.meter a p := by cases p <;> rfl

theorem moved_modArm (a : Fin 8) (f : Arm → Arm) : (s.moved m).modArm a f = (s.modArm a f).moved m := rfl

theorem moved_setMeter (a : Fin 8) (p : StreamPos) (x : Meter) : (s.moved m).setMeter a p x = (s.setMeter a p x).moved m := by
  cases p <;> rfl

theorem moved_modMeter (a : Fin 8) (p : StreamPos) (f : Meter → Meter) :
    (s.moved m).modMeter a p f = (s.modMeter a p f).moved m := by
  unfold State.modMeter
  rw [moved_meter, moved_setMeter]

theorem moved_requestSave (a : Fin 8) : (s.moved m).requestSave a = (s.requestSave a).moved m := by
  refine moved_ite rfl ?_
  unfold State.joinQueue
  show (match s.store.underWay with | none => _ | some _ => _) = _
  cases s.store.underWay <;> rfl

/-! ### The batch -/

theorem moved_leaveWindow (a : Fin 8) : (s.moved m).leaveWindow a = (s.leaveWindow a).moved m := by
  unfold State.leaveWindow
  show (match (s.arm a).ctx with | none => _ | some c => _) = _
  cases (s.arm a).ctx <;> rfl

theorem moved_returnPending (a : Fin 8) (c : Sense) : (s.moved m).returnPending a c = (s.returnPending a c).moved m := by
  unfold State.returnPending
  rw [moved_leaveWindow]
  rfl

theorem moved_expirePending (a : Fin 8) : (s.moved m).expirePending a = (s.expirePending a).moved m := by
  refine moved_ite ?_ rfl
  show (match (s.arm a).ctx with | none => _ | some c => _) = _
  cases (s.arm a).ctx with
  | none => rfl
  | some c =>
    show (match s.startRefusal a c with | none => _ | some code => _) =
        State.moved m (match s.startRefusal a c with | none => _ | some code => _)
    cases s.startRefusal a c <;> rfl

theorem moved_expireWindow (l : Fin 4) : (s.moved m).expireWindow l = (s.expireWindow l).moved m := by
  unfold State.expireWindow
  show ((s.windows[l].pending).foldl State.expirePending (s.moved m)).setWindow l StartWindow.closed = _
  rw [moved_foldl (moved_expirePending m)]
  rfl

theorem moved_tickWindow (l : Fin 4) : (s.moved m).tickWindow l = (s.tickWindow l).moved m :=
  moved_ite (moved_expireWindow m s l) (moved_ite rfl rfl)

theorem moved_tryResume (a : Fin 8) : (s.moved m).tryResume a = (s.tryResume a).moved m := moved_ite rfl rfl

theorem moved_finalize (a : Fin 8) : (s.moved m).finalize a = (s.finalize a).moved m := by
  unfold State.finalize
  show (match (s.arm a).ctx, (s.arm a).current with | some c, some r => _ | _, _ => _) = _
  cases (s.arm a).ctx with
  | none => rfl
  | some c =>
    cases (s.arm a).current with
    | none => rfl
    | some r => exact moved_requestSave m (s.modArm a (fun x => x.finalized a c r s.trunk.frameCounter)) a

theorem moved_settle (a : Fin 8) : (s.moved m).settle a = (s.settle a).moved m := by
  have harm : ((s.moved m).arm a).state = (s.arm a).state := rfl
  unfold State.settle
  rw [harm]
  cases (s.arm a).state with
  | holding => exact moved_tryResume m (s.modArm a (fun x => { x with state := .held })) a
  | closing => exact moved_finalize m s a
  | _ => rfl

theorem moved_settleExpire (a : Fin 8) : (s.moved m).settleExpire a = (s.settleExpire a).moved m := by
  unfold State.settleExpire
  rw [moved_modArm, moved_finalize]

theorem moved_holdingStep (a : Fin 8) : (s.moved m).holdingStep a = (s.holdingStep a).moved m :=
  moved_ite rfl (moved_ite (moved_settle m ((s.modArm a Arm.holdTick).storeZero a) a) rfl)

theorem moved_heldStep (a : Fin 8) : (s.moved m).heldStep a = (s.heldStep a).moved m := moved_ite rfl rfl

theorem moved_closingStep (a : Fin 8) : (s.moved m).closingStep a = (s.closingStep a).moved m :=
  moved_ite (moved_settle m (s.storeZero a) a) (moved_ite (moved_settleExpire m (s.storeZero a) a) rfl)

theorem moved_armAct (a : Fin 8) : (s.moved m).armAct a = (s.armAct a).moved m := by
  have harm : ((s.moved m).arm a).state = (s.arm a).state := rfl
  unfold State.armAct
  rw [harm]
  cases (s.arm a).state with
  | holding => exact moved_holdingStep m s a
  | held => exact moved_heldStep m s a
  | closing => exact moved_closingStep m s a
  | _ => rfl

theorem moved_runBlock (a : Fin 8) (received : ArmState) (b : Block) :
    State.runBlock a received (s.moved m) b = (State.runBlock a received s b).moved m := by
  cases b with
  | armController => exact moved_armAct m s a
  | ratioController => rfl
  | additiveScheduler => rfl

theorem moved_blocksQuiet (a : Fin 8) : (s.moved m).blocksQuiet a = s.blocksQuiet a := by
  unfold State.blocksQuiet
  refine congrArg (fun f => [Block.armController, .ratioController, .additiveScheduler].all f) (funext fun b => ?_)
  unfold State.blockQuiet
  dsimp only
  rw [moved_runBlock]
  rfl

theorem moved_armFrameClosed (a : Fin 8) : (s.moved m).armFrameClosed a = (s.armFrameClosed a).moved m := by
  have hblocks := fun (t : State) (order : List Block) =>
    moved_foldl (m := m) (fun t b => moved_runBlock m t a (s.arm a).state b) order t
  refine moved_ite rfl ?_
  rw [moved_blocksQuiet]
  exact moved_ite (hblocks s _) (hblocks { s with choices := s.choices + 1 } (freeOrder s.choices))

theorem moved_settleMeter (a : Fin 8) (p : StreamPos) : (s.moved m).settleMeter a p = (s.settleMeter a p).moved m := by
  unfold State.settleMeter
  have hsettled : (s.moved m).modMeter a p (fun x => x.settled (s.moved m).trunk.frameCounter (s.moved m).timebase.periodMs) =
      (s.modMeter a p (fun x => x.settled s.trunk.frameCounter s.timebase.periodMs)).moved m := moved_modMeter m s a p _
  rw [hsettled]
  generalize s.modMeter a p (fun x => x.settled s.trunk.frameCounter s.timebase.periodMs) = u
  dsimp only
  have htemp : (if (s.moved m).config.tempHoldLimit ≤ ((u.moved m).meter a p).age then
      (u.moved m).modArm a (fun x => x.raiseCause .tempLost) else u.moved m) =
      (if s.config.tempHoldLimit ≤ (u.meter a p).age then u.modArm a (fun x => x.raiseCause .tempLost) else u).moved m := by
    rw [moved_meter]
    exact moved_ite rfl rfl
  rw [htemp]
  generalize (if s.config.tempHoldLimit ≤ (u.meter a p).age then u.modArm a (fun x => x.raiseCause .tempLost) else u) = v
  exact moved_ite (moved_armFrameClosed m v a) rfl

theorem moved_settleUnassigned (a : Fin 8) (p : StreamPos) :
    (s.moved m).settleUnassigned a p = (s.settleUnassigned a p).moved m := moved_ite (moved_settleMeter m s a p) rfl

theorem moved_settleAtClose (i : Fin 64) (a : Fin 8) (r : Role) :
    (s.moved m).settleAtClose i a r = (s.settleAtClose i a r).moved m := by
  unfold State.settleAtClose
  cases r.meterPos with
  | none => rfl
  | some p => exact moved_ite rfl (moved_settleMeter m s a p)

/-! ### The relay and the trunk -/

theorem moved_abandonTransfer (a : Fin 8) (code : Sense) :
    (s.moved m).abandonTransfer a code = (s.abandonTransfer a code).moved m := by
  refine moved_ite ?_ rfl
  unfold State.refuse State.recordRefusal
  rw [dif_pos a.isLt, dif_pos a.isLt]
  rfl

theorem moved_serviceSlotLost (a : Fin 8) (i : Fin 64) :
    (s.moved m).serviceSlotLost a i = (s.serviceSlotLost a i).moved m := moved_ite (moved_abandonTransfer m s a _) rfl

theorem moved_serviceTick (a : Fin 8) : (s.moved m).serviceTick a = (s.serviceTick a).moved m :=
  moved_ite (moved_abandonTransfer m s a _) (moved_ite rfl rfl)

theorem moved_slotLostEvent (i : Fin 64) (a : Fin 8) (r : Role) :
    (s.moved m).slotLostEvent i a r = (s.slotLostEvent i a r).moved m := by
  have hservice : ((s.moved m).modArm a (fun x => x.slotLost r)).serviceSlotLost a i =
      ((s.modArm a (fun x => x.slotLost r)).serviceSlotLost a i).moved m :=
    moved_serviceSlotLost m (s.modArm a (fun x => x.slotLost r)) a i
  unfold State.slotLostEvent
  dsimp only
  rw [hservice]
  cases r.meterPos with
  | none => rfl
  | some p => exact moved_modMeter m _ a p _

theorem moved_slotInvalid (i : Fin 64) (a : Fin 8) (r : Role) :
    (s.moved m).slotInvalid i a r = (s.slotInvalid i a r).moved m :=
  moved_ite (moved_slotLostEvent m (s.setSlot i { s.trunk.slots[i] with invalids := Config.lossFrames, up := false }) i a r)
    (moved_ite rfl rfl)

theorem moved_trunkDownEvent : (s.moved m).trunkDownEvent = s.trunkDownEvent.moved m :=
  moved_foldl (fun _ _ => rfl) allArms (s.modTrunk (fun t => { t with state := .down, crcErrors := 0, staleErrors := 0 }))

theorem moved_silenceStep : (s.moved m).silenceStep = s.silenceStep.moved m :=
  moved_ite rfl (moved_ite
    (moved_trunkDownEvent m (s.modTrunk (fun t => { t with silence := satSucc Config.lossFrames t.silence }))) rfl)

theorem moved_testStep : (s.moved m).testStep = s.testStep.moved m :=
  moved_ite (moved_ite rfl
    (moved_trunkDownEvent m
      ((s.modTrunk Trunk.testResult).modTrunk (fun t => { t with test := { t.test with state := .complete } }))))
    rfl

theorem moved_intervalEnd : (s.moved m).intervalEnd = s.intervalEnd.moved m := by
  unfold State.intervalEnd
  have htrunk : ((s.moved m).modTrunk (fun t => { t with answering := false })).silenceStep.testStep =
      (s.modTrunk (fun t => { t with answering := false })).silenceStep.testStep.moved m := by
    rw [← moved_testStep, ← moved_silenceStep]
    rfl
  dsimp only
  rw [htrunk, moved_foldl (moved_tickWindow m), moved_foldl (moved_serviceTick m)]
  exact moved_foldl (fun t a => by rw [moved_settleUnassigned, moved_settleUnassigned]) allArms _

/-- A window closes without a word (R21, R23). -/
theorem moved_closeSlot (i : Fin 64) : (s.moved m).closeSlot i [] = (s.closeSlot i []).moved m := by
  unfold State.closeSlot
  show (match s.frameAssignment i with | none => _ | some ar => _) = _
  cases s.frameAssignment i with
  | none => rfl
  | some ar =>
    dsimp only
    generalize hu : s.modTrunk (fun t => { t with nextWindow := t.nextWindow + 1 }) = u
    have hmoved : (s.moved m).modTrunk (fun t => { t with nextWindow := t.nextWindow + 1 }) = u.moved m := by
      rw [← hu]
      rfl
    have hsilent : ∀ last, classifyWord last [] = .silent := fun _ => rfl
    rw [hmoved, State.closeAssigned_invalid (by rw [hsilent]; nofun), State.closeAssigned_invalid (by rw [hsilent]; nofun),
      ← moved_settleAtClose, ← moved_slotInvalid]
    rfl

theorem moved_closeWindow : (s.moved m).closeWindow [] = (s.closeWindow []).moved m := by
  unfold State.closeWindow
  refine moved_ite ?_ rfl
  show (if h : s.trunk.nextWindow < 64 then _ else _) = _
  by_cases h : s.trunk.nextWindow < 64
  · rw [dif_pos h, dif_pos h]
    have hslot : (s.moved m).closeSlot ⟨(s.moved m).trunk.nextWindow, h⟩ [] =
        (s.closeSlot ⟨s.trunk.nextWindow, h⟩ []).moved m :=
      moved_closeSlot m s _
    dsimp only
    rw [hslot]
    exact moved_ite (moved_intervalEnd m _) rfl
  · rw [dif_neg h, dif_neg h]
    exact moved_intervalEnd m (s.modTrunk (fun t => { t with nextWindow := 64 }))

/-! ### The levels -/

theorem moved_levelsChanged (a : Fin 8) (old : Levels) : (s.moved m).levelsChanged a old = (s.levelsChanged a old).moved m := by
  unfold State.levelsChanged
  have hdropped : (if old.runPermit && !(s.moved m).rack.levels[a].runPermit then
      (s.moved m).runPermitDropped a (s.moved m).rack.levels[a].dropCause else s.moved m) =
      (if old.runPermit && !s.rack.levels[a].runPermit then s.runPermitDropped a s.rack.levels[a].dropCause else s).moved m :=
    moved_ite (moved_ite (moved_returnPending m s a _) rfl) rfl
  dsimp only
  rw [hdropped]
  generalize (if old.runPermit && !s.rack.levels[a].runPermit then s.runPermitDropped a s.rack.levels[a].dropCause else s) = u
  exact moved_ite (moved_ite (moved_ite rfl rfl) (moved_tryResume m u a)) rfl

theorem moved_setLevels (levels : Vector Levels 8) : (s.moved m).setLevels levels = (s.setLevels levels).moved m :=
  moved_foldl (fun t a => moved_levelsChanged m t a _) allArms (s.modRack (fun r => { r with levels := levels }))

/-- The link goes DOWN at another moment; it is DOWN then, its silence 0 (R10). -/
theorem moved_linkDown : (s.moved m).linkDown = s.linkDown.moved { m with up := false, silence := 0 } := by
  have hlevels := moved_setLevels m s (Vector.ofFn (fun a => s.rack.levels[a].linkLost))
  rw [State.linkDown_eq, State.linkDown_eq]
  show State.cutLink ((s.moved m).setLevels (Vector.ofFn (fun a => s.rack.levels[a].linkLost))) = _
  rw [hlevels]
  rfl

end

end State

end Sys2Proof.Machine
end

section
/-! PROOFS. The period events: the windows cut short, the frames sent, below the link loss limit and at it (R5, R6, R9, R15,
R17, R21). -/

namespace Sys2Proof.Machine

/-! ## The channel of a transfer-free relay -/

/-- With no response wanted, the transaction is kept and none becomes wanted (R166). -/
def KeepsChannel (s t : State) : Prop :=
  (∀ a : Fin 8, s.transfers[a].wanted = false) →
    t.rack.transaction = s.rack.transaction ∧ ∀ a : Fin 8, t.transfers[a].wanted = false

namespace KeepsChannel

theorem of_eq {s t : State} (hrack : t.rack.transaction = s.rack.transaction) (htransfers : t.transfers = s.transfers) :
    KeepsChannel s t := fun h => ⟨hrack, fun a => by rw [htransfers]; exact h a⟩

theorem of_field {s t : State} (h : FieldSide s t) : KeepsChannel s t := .of_eq (by rw [h.rack]) h.transfers

theorem refl (s : State) : KeepsChannel s s := .of_eq rfl rfl

theorem trans {s t u : State} (h : KeepsChannel s t) (k : KeepsChannel t u) : KeepsChannel s u := fun hs =>
  have ⟨htransaction, hwanted⟩ := h hs
  have ⟨htransaction', hwanted'⟩ := k hwanted
  ⟨htransaction'.trans htransaction, hwanted'⟩

theorem ite {s t u : State} {c : Prop} [Decidable c] (h : KeepsChannel s t) (k : KeepsChannel s u) :
    KeepsChannel s (if c then t else u) := by
  split
  · exact h
  · exact k

theorem foldl {β : Type} (f : State → β → State) (h : ∀ s x, KeepsChannel s (f s x)) (l : List β) (s : State) :
    KeepsChannel s (l.foldl f s) := by
  induction l generalizing s with
  | nil => exact .refl s
  | cons x l ih => exact (h s x).trans (ih _)

theorem abandonTransfer (s : State) (a : Fin 8) (code : Sense) : KeepsChannel s (s.abandonTransfer a code) := fun h => by
  rw [State.abandonTransfer_unwanted (h a)]
  refine ⟨rfl, fun b => ?_⟩
  rw [State.setTransfer_transfers]
  by_cases hb : a = b
  · subst hb
    rw [get_set_self]
    rfl
  · rw [get_set_ne _ _ _ _ hb, h b]

theorem serviceTick (s : State) (a : Fin 8) : KeepsChannel s (s.serviceTick a) := by
  refine .ite (.abandonTransfer s a _) (.ite (fun h => ⟨rfl, fun b => ?_⟩) (.refl s))
  rw [State.setTransfer_transfers]
  by_cases hb : a = b
  · subst hb
    rw [get_set_self]
    exact h a
  · rw [get_set_ne _ _ _ _ hb, h b]

theorem slotLostEvent (s : State) (i : Fin 64) (a : Fin 8) (r : Role) : KeepsChannel s (s.slotLostEvent i a r) := fun h => by
  refine ⟨by rw [State.slotLostEvent_rack s i a r (by rw [h a]; nofun)], fun b => ?_⟩
  rw [State.slotLostEvent_transfers]
  split_ifs
  · rfl
  · exact h b

theorem modTrunk (s : State) (f : Trunk → Trunk) : KeepsChannel s (s.modTrunk f) := .of_eq rfl rfl

theorem slotInvalid (s : State) (i : Fin 64) (a : Fin 8) (r : Role) : KeepsChannel s (s.slotInvalid i a r) :=
  .ite ((modTrunk s _).trans (.slotLostEvent _ i a r)) (.ite (.modTrunk s _) (.modTrunk s _))

theorem intervalEnd (s : State) : KeepsChannel s s.intervalEnd := by
  have hdown : ∀ t : State, KeepsChannel t t.trunkDownEvent := fun t => by
    rw [State.trunkDownEvent_eq]
    exact .of_eq rfl rfl
  have hsilence : ∀ t : State, KeepsChannel t t.silenceStep := fun t =>
    .ite (.refl t) (.ite ((modTrunk t _).trans (hdown _)) (.modTrunk t _))
  have htest : ∀ t : State, KeepsChannel t t.testStep := fun t =>
    .ite ((modTrunk t _).trans (.ite ((modTrunk _ _).trans (.modTrunk _ _)) ((modTrunk _ _).trans (hdown _)))) (.modTrunk t _)
  unfold State.intervalEnd
  dsimp only
  have htrunk : KeepsChannel s (s.modTrunk (fun t => { t with answering := false })).silenceStep.testStep :=
    ((modTrunk s _).trans (hsilence _)).trans (htest _)
  generalize (s.modTrunk (fun t => { t with answering := false })).silenceStep.testStep = u at htrunk ⊢
  have hticked := (of_field (FieldSide.foldl State.tickWindow FieldSide.tickWindow allLanes u)).trans
    (foldl State.serviceTick serviceTick allArms _)
  refine (htrunk.trans hticked).trans ?_
  exact .of_field (FieldSide.foldl (fun t a => (t.settleUnassigned a .wild).settleUnassigned a .ctrl)
    (fun t a => (FieldSide.settleUnassigned t a _).trans (.settleUnassigned _ a _)) allArms _)

end KeepsChannel

/-- The close of a window without a word, in the frame's own terms (R21, R26). -/
theorem State.closeSlot_silent (s : State) (i : Fin 64) : s.closeSlot i [] =
    (let u := s.modTrunk (fun t => { t with nextWindow := t.nextWindow + 1 })
     match s.frameAssignment i with
     | none => u
     | some ar => ((u.modTrunk (fun t => t.noteTest i .silent [])).slotInvalid i ar.1 ar.2).settleAtClose i ar.1 ar.2) := by
  unfold State.closeSlot
  dsimp only
  cases s.frameAssignment i with
  | none => rfl
  | some ar =>
    have hsilent : ∀ last, classifyWord last [] = .silent := fun _ => rfl
    dsimp only
    rw [State.closeAssigned_invalid (by rw [hsilent]; nofun), hsilent]
    rfl

theorem KeepsChannel.closeSlot (s : State) (i : Fin 64) : KeepsChannel s (s.closeSlot i []) := by
  rw [State.closeSlot_silent]
  dsimp only
  split
  · exact .modTrunk s _
  · exact (((modTrunk s _).trans (.modTrunk _ _)).trans (.slotInvalid _ i _ _)).trans
      (.of_field (FieldSide.settleAtClose _ i _ _))

theorem KeepsChannel.closeWindow (s : State) : KeepsChannel s (s.closeWindow []) := by
  unfold State.closeWindow
  refine .ite ?_ (.refl s)
  split
  · next h => exact .ite ((closeSlot s _).trans (.intervalEnd _)) (.closeSlot s _)
  · exact (modTrunk s _).trans (.intervalEnd _)

theorem KeepsChannel.cutWindows : ∀ (n : Nat) (s : State), KeepsChannel s (s.cutWindows n)
  | 0, s => .refl s
  | n + 1, s => .ite ((closeWindow s).trans (cutWindows n _)) (.refl s)

theorem KeepsChannel.reassigned (s : State) : KeepsChannel s s.reassigned :=
  (of_eq (t := s.adopted) rfl rfl).trans (.foldl _ (fun t i => State.changeAssignment_of (.refl t) (.modTrunk t _)
    (fun a r => (modTrunk t _).trans (.slotLostEvent _ i a r))) _ _)

/-! ## The windows cut short (R21) -/

/-- The trunk's window counters after the close of a slot's window without a word. -/
theorem State.closeSlot_windows (s : State) (i : Fin 64) :
    (s.closeSlot i []).trunk.nextWindow = s.trunk.nextWindow + 1 ∧ (s.closeSlot i []).trunk.answering = s.trunk.answering ∧
    (s.closeSlot i []).trunk.frameCounter = s.trunk.frameCounter := by
  rw [State.closeSlot_silent]
  dsimp only
  split
  · exact ⟨rfl, rfl, rfl⟩
  · rw [(FieldSide.settleAtClose _ i _ _).trunk, State.slotInvalid_trunk]
    exact ⟨rfl, rfl, rfl⟩

theorem State.intervalEnd_windowsClosed (s : State) :
    s.intervalEnd.trunk.answering = false ∧ s.intervalEnd.trunk.frameCounter = s.trunk.frameCounter := by
  rw [State.intervalEnd_trunk, Trunk.ended_eq]
  exact ⟨rfl, rfl⟩

/-- One closing of a window: the interval has ended, or the next window follows (R21). -/
theorem State.closeWindow_windows {s : State} (h : s.trunk.answering = true) :
    (s.closeWindow []).trunk.frameCounter = s.trunk.frameCounter ∧
    ((s.closeWindow []).trunk.answering = false ∨
      s.trunk.nextWindow < 64 ∧ (s.closeWindow []).trunk.nextWindow = s.trunk.nextWindow + 1) := by
  unfold State.closeWindow
  rw [if_pos h]
  by_cases hlt : s.trunk.nextWindow < 64
  · rw [dif_pos hlt]
    obtain ⟨hnext, -, hcounter⟩ := s.closeSlot_windows ⟨s.trunk.nextWindow, hlt⟩
    dsimp only
    split_ifs
    · obtain ⟨hclosed, hkept⟩ := (s.closeSlot ⟨s.trunk.nextWindow, hlt⟩ []).intervalEnd_windowsClosed
      exact ⟨hkept.trans hcounter, .inl hclosed⟩
    · exact ⟨hcounter, .inr ⟨hlt, hnext⟩⟩
  · rw [dif_neg hlt]
    obtain ⟨hclosed, hkept⟩ := (s.modTrunk (fun t => { t with nextWindow := 64 })).intervalEnd_windowsClosed
    exact ⟨hkept, .inl hclosed⟩

theorem State.cutWindows_frameCounter : ∀ (n : Nat) (s : State),
    (s.cutWindows n).trunk.frameCounter = s.trunk.frameCounter
  | 0, _ => rfl
  | n + 1, s => by
    unfold State.cutWindows
    split_ifs with h
    · exact (State.cutWindows_frameCounter n _).trans (State.closeWindow_windows h).1
    · rfl

/-- With one step for each window that may be open, and one more, every window closes, and a further step adds nothing. -/
theorem State.cutWindows_enough : ∀ (n : Nat) (s : State), (s.trunk.answering = true → 65 ≤ n + min 64 s.trunk.nextWindow) →
    (s.cutWindows n).trunk.answering = false ∧ s.cutWindows (n + 1) = s.cutWindows n
  | 0, s, h => by
    have hclosed : s.trunk.answering = false := by
      by_contra hn
      have := h (eq_true_of_ne_false hn)
      omega
    exact ⟨hclosed, State.cutWindows_of_closed hclosed 1⟩
  | n + 1, s, h => by
    by_cases hopen : s.trunk.answering = true
    · have hstep : ∀ k, s.cutWindows (k + 1) = (s.closeWindow []).cutWindows k := fun k => if_pos hopen
      rw [hstep (n + 1), hstep n]
      refine State.cutWindows_enough n _ fun hstill => ?_
      have hn := h hopen
      rcases (State.closeWindow_windows hopen).2 with hclosed | ⟨hlt, hnext⟩
      · rw [hclosed] at hstill
        cases hstill
      · rw [hnext]
        omega
    · have hclosed := eq_false_of_ne_true hopen
      rw [State.cutWindows_of_closed hclosed, State.cutWindows_of_closed hclosed]
      exact ⟨hclosed, rfl⟩


/-! ## The frames of a period event (R5, R6, R15, R17) -/

/-- What the frames of a period event leave of the state that sends them. -/
structure State.Sent (c t : State) : Prop where
  powered : t.powered = c.powered
  nowUs : t.nowUs = c.nowUs
  lines : t.lines = c.lines
  tables : t.tables = c.tables
  nv : t.nv = c.nv
  pending : t.pending = c.pending
  timebase : t.timebase = { c.timebase with periodMs := c.config.periodMs, lastEventUs := c.nowUs }
  up : t.rack.up = c.rack.up
  silence : t.rack.silence = c.rack.silence
  last : t.rack.last = c.rack.last
  levels : t.rack.levels = c.rack.levels
  mark : t.rack.upstream.take 3 = [0xD2, 0xB4, c.echo]
  trunk : t.trunk = { c.adopted.trunk with slots := t.trunk.slots, downstream := t.trunk.downstream }
  emitted : t.EmittedFrom c

theorem State.sendFrames_emittedFrom (c : State) : c.sendFrames.EmittedFrom c := by
  have hrack : c.reassigned.rack.resetDue = c.rack.resetDue := by
    have h := (TrunkSide.emitFrame c).rack
    rw [(State.sendFrames_parts c).2.2.2.2.2.2] at h
    rw [h]
  have hstill : c.Still → c.reassigned = c.adopted := fun h => State.reassigned_of_same h.2.1 h.2.2
  have hkept := KeepsChannel.reassigned c
  have hdue : c.sendFrames.rack.resetDue =
      (c.reassigned.rack.resetDue || c.reassigned.rack.transaction.segment.2.2.2) := by
    unfold State.sendFrames
    rw [State.emitFrame_eq]
    generalize c.reassigned = v
    rfl
  refine ⟨c.reassigned.rack.transaction, c.reassigned.transfers, ?_, (State.sendFrames_parts c).2.2.2.2.2.1, ?_, ?_,
    fun h => ?_, fun h => by rw [hstill h]; rfl⟩
  · unfold State.sendFrames
    rw [State.emitFrame_eq]
    generalize c.reassigned = v
    rfl
  · rw [hdue, hrack]
  · unfold State.sendFrames
    rw [State.emitFrame_eq]
    generalize c.reassigned = v
    rfl
  · rcases h with h | h
    · rw [hstill h]
      rfl
    · exact (hkept h).1

theorem State.sendFrames_sent (c : State) : c.Sent c.sendFrames := by
  have hside := TrunkSide.emitFrame c
  have hconfig : c.emitFrame.config = c.config := congrArg (fun k : Tables => k.config.work) hside.tables
  have hecho : c.emitFrame.echo = c.echo := by
    unfold State.echo
    rw [hside.timebase, hside.rack]
  have htrunk : c.sendFrames.trunk =
      { c.adopted.trunk with slots := c.sendFrames.trunk.slots, downstream := c.sendFrames.trunk.downstream } := by
    rw [(State.sendFrames_parts c).2.2.2.1, State.reassigned_trunk]
  have hemitted := c.sendFrames_emittedFrom
  obtain ⟨-, -, -, -, hmark, -⟩ := c.emitFrame.upstreamFrame_parts
  unfold State.sendFrames at htrunk hemitted ⊢
  generalize c.emitFrame = e at hside hconfig hecho htrunk hemitted hmark ⊢
  exact {
    powered := hside.powered, nowUs := hside.nowUs, lines := hside.lines, tables := hside.tables, nv := hside.nv,
    pending := hside.pending
    timebase := by
      show ({ e.timebase with periodMs := e.config.periodMs, lastEventUs := e.nowUs } : Timebase) = _
      rw [hside.timebase, hconfig, hside.nowUs]
    up := (congrArg RackLink.up hside.rack :), silence := (congrArg RackLink.silence hside.rack :)
    last := (congrArg RackLink.last hside.rack :), levels := (congrArg RackLink.levels hside.rack :)
    mark := by
      show e.upstreamFrame.take 3 = _
      rw [hmark, hecho]
    trunk := htrunk
    emitted := hemitted }

/-- What a period event leaves of the state that it finds. -/
theorem State.periodEvent_emittedFrom {s u : State} (htrunk : u.trunk = s.trunk) (hconfig : u.config = s.config)
    (htable : u.slotTable = s.slotTable) (htransfers : u.transfers = s.transfers)
    (htransaction : u.rack.transaction = s.rack.transaction) (hdue : u.rack.resetDue = s.rack.resetDue) :
    u.periodEvent.EmittedFrom s := by
  have hside := TrunkSide.cutWindows 65 u
  have hkept := KeepsChannel.cutWindows 65 u
  have hcut : s.Still → u.cutWindows 65 = u := fun h => State.cutWindows_of_closed (by rw [htrunk]; exact h.1) 65
  have hstill : s.Still → (u.cutWindows 65).Still := fun h => by
    rw [hcut h]
    exact ⟨by rw [htrunk]; exact h.1, by rw [htrunk, hconfig]; exact h.2.1, by rw [htrunk, htable]; exact h.2.2⟩
  obtain ⟨transaction, transfers, hup, hnext, hreset, hdown, hsame, hsameTransfers⟩ := (u.cutWindows 65).sendFrames_emittedFrom
  refine ⟨transaction, transfers, hup, hnext, ?_, hdown, fun h => ?_, fun h => ?_⟩
  · rw [← hdue, ← show (u.cutWindows 65).rack.resetDue = u.rack.resetDue by rw [hside.rack]]
    exact hreset
  · rw [← htransaction]
    rcases h with h | h
    · have := hsame (.inl (hstill h))
      rwa [hcut h] at this
    · obtain ⟨hrack, hwanted⟩ := hkept (by rw [htransfers]; exact h)
      exact (hsame (.inr hwanted)).trans hrack
  · rw [hsameTransfers (hstill h), hcut h, htransfers]


/-! ## Settling O24 -/

theorem EchoTest.covers_iff (t : EchoTest) : t.covers = true ↔ t.state = .running ∧ 0 < t.remaining := by
  unfold EchoTest.covers
  rw [Bool.and_eq_true, beq_iff_eq, decide_eq_true_eq]

/-- What an INTERNAL period event leaves, when it does not take the link DOWN. -/
def State.InternalEvent (s t : State) (us : Nat) : Prop :=
  t.timebase.internal = true ∧ t.nowUs = max s.nowUs us ∧ t.timebase.lastEventUs = t.nowUs ∧
  t.timebase.periodMs = s.config.periodMs ∧ t.rack.up = s.rack.up ∧
  t.rack.silence = (if s.rack.up then s.rack.silence + 1 else s.rack.silence) ∧
  t.rack.levels = s.rack.levels ∧ t.rack.last = s.rack.last ∧ t.rack.upstream.take 3 = [0xD2, 0xB4, 0xFF] ∧
  t.trunk.frameCounter = (s.trunk.frameCounter + 1) % 4294967296 ∧
  t.lines = s.lines ∧ t.tables = s.tables ∧ t.nv = s.nv ∧ t.powered = true ∧ t.pending = s.pending ∧
  t.EmittedFrom s ∧
  (s.trunk.answering = false →
    ((s.trunk.test.state = .running ∧ 0 < s.trunk.test.remaining) →
      t.trunk.testFrame = true ∧ t.trunk.test = { s.trunk.test with
      remaining := s.trunk.test.remaining - 1, framesRun := s.trunk.test.framesRun + 1 }) ∧
    (¬ (s.trunk.test.state = .running ∧ 0 < s.trunk.test.remaining) →
      t.trunk.testFrame = false ∧ t.trunk.test = s.trunk.test))

theorem State.risen_periodEvent (s : State) (us : Nat) (hpow : s.powered = true) :
    s.InternalEvent (s.at us).risen.periodEvent us := by
  have hemitted : (s.at us).risen.periodEvent.EmittedFrom s := State.periodEvent_emittedFrom rfl rfl rfl rfl rfl rfl
  have hsent := ((s.at us).risen.cutWindows 65).sendFrames_sent
  have hside := TrunkSide.cutWindows 65 (s.at us).risen
  have hcounter := State.cutWindows_frameCounter 65 (s.at us).risen
  have hclosed : s.trunk.answering = false → (s.at us).risen.cutWindows 65 = (s.at us).risen :=
    fun h => State.cutWindows_of_closed (by exact h) 65
  unfold State.periodEvent at hemitted ⊢
  generalize (s.at us).risen.cutWindows 65 = c at hsent hside hcounter hclosed hemitted ⊢
  generalize c.sendFrames = t at hsent hemitted ⊢
  have hbase : t.timebase = { c.timebase with periodMs := c.config.periodMs, lastEventUs := c.nowUs } := hsent.timebase
  have hinternal : c.timebase.internal = true := (congrArg Timebase.internal hside.timebase :)
  have hecho : c.echo = 0xFF := if_pos hinternal
  refine ⟨by rw [hbase]; exact hinternal, hsent.nowUs.trans hside.nowUs, by rw [hbase, hsent.nowUs], ?_,
    hsent.up.trans (congrArg RackLink.up hside.rack :), hsent.silence.trans (congrArg RackLink.silence hside.rack :),
    hsent.levels.trans (congrArg RackLink.levels hside.rack :), hsent.last.trans (congrArg RackLink.last hside.rack :),
    by rw [hsent.mark, hecho], ?_, hsent.lines.trans hside.lines, hsent.tables.trans hside.tables, hsent.nv.trans hside.nv,
    (hsent.powered.trans hside.powered).trans hpow, hsent.pending.trans hside.pending, hemitted, fun hno => ?_⟩
  · rw [hbase]
    exact (congrArg (fun k : Tables => k.config.work.periodMs) hside.tables :)
  · rw [hsent.trunk]
    show nextFrame c.trunk.frameCounter = _
    rw [hcounter]
    rfl
  · have htrunk : c.trunk = s.trunk := by
      rw [hclosed hno]
      rfl
    have hframe : t.trunk.testFrame = s.trunk.test.covers ∧ t.trunk.test = s.trunk.test.emitted := by
      rw [hsent.trunk, ← htrunk]
      exact ⟨rfl, rfl⟩
    rw [hframe.1, hframe.2, ← EchoTest.covers_iff]
    exact ⟨fun h => ⟨h, if_pos h⟩, fun h => ⟨eq_false_of_ne_true h, if_neg h⟩⟩

/-- An event of source RACK that is due (R5). -/
theorem exec_timebaseRackTimeout {s : State} (hpow : s.powered = true) (hrack : s.timebase.internal = false)
    {l : LastFrame} (hlast : s.rack.last = some l) :
    exec .timebaseRackTimeout s = .next (s.at (l.atUs + 1500 * s.timebase.periodMs)).internalPeriod := by
  refine congrArg Host.Outcome.next (((if_pos hpow).trans (if_neg (by rw [hrack]; nofun))).trans ?_)
  unfold State.timeoutUs
  rw [hlast]
  rfl

/-- The moment of an INTERNAL event (R5). -/
def State.internalAt (s : State) (us : Nat) : Moment :=
  { nowUs := max s.nowUs us, up := s.rack.up, silence := s.rack.silence, last := s.rack.last, internal := true }

theorem State.internalPeriod_at (s : State) (us : Nat) :
    (s.at us).internalPeriod = (s.moved (s.internalAt us)).silenceRise.periodEvent := rfl

/-- An event that takes the link DOWN is the event after LINK_LOSS (R9, R10). -/
theorem State.internalPeriod_of_loss {s : State} (hup : s.rack.up = true) (hlimit : s.config.linkLossLimit ≤ s.rack.silence + 1)
    (us : Nat) : (s.at us).internalPeriod = (s.linkDown.at us).internalPeriod := by
  have hside := FieldSide.setLevels s (Vector.ofFn (fun a => s.rack.levels[a].linkLost))
  have hnow : s.linkDown.nowUs = s.nowUs := hside.nowUs
  have hlast : s.linkDown.rack.last = s.rack.last := (congrArg RackLink.last hside.rack :)
  have hafter : s.linkDown.internalAt us = { s.internalAt us with up := false, silence := 0 } := by
    unfold State.internalAt
    rw [hnow, hlast]
    rfl
  have hdue : (s.moved (s.internalAt us)).silenceRise = (s.moved (s.internalAt us)).linkDown := if_pos (by
    unfold State.linkLossDue
    show (s.rack.up && decide (s.config.linkLossLimit ≤ s.rack.silence + 1)) = true
    rw [hup, decide_eq_true hlimit]
    rfl)
  have hdown : ∀ u : State, u.rack.up = false → u.silenceRise = u := fun u hu => by
    unfold State.silenceRise State.linkLossDue
    rw [hu]
    rfl
  rw [State.internalPeriod_at, State.internalPeriod_at, hdue, State.moved_linkDown, hafter, hdown _ rfl]

/-- Settles O24: below the limit by `State.risen_periodEvent`, at it by `State.internalPeriod_of_loss`. -/
theorem internalPeriodEvents : Obligations.InternalPeriodEvents := by
  refine ⟨fun s hpow hquiet => ?_, fun s hpow hup hlimit => ?_⟩
  · intro emitted
    refine ⟨fun hinternal => ?_, fun hrack l hlast => ?_⟩
    · exact ⟨_, exec_timebaseInternalPeriod hpow hinternal hquiet, s.risen_periodEvent _ hpow⟩
    · refine ⟨_, (exec_timebaseRackTimeout hpow hrack hlast).trans ?_, s.risen_periodEvent _ hpow⟩
      rw [State.internalPeriod_of_quiet (by exact hquiet)]
  · have hside := FieldSide.setLevels s (Vector.ofFn (fun a => s.rack.levels[a].linkLost))
    have hbase : s.linkDown.timebase = s.timebase := hside.timebase
    have hpowered : s.linkDown.powered = true := hside.powered.trans hpow
    have hlast : s.linkDown.rack.last = s.rack.last := (congrArg RackLink.last hside.rack :)
    refine ⟨s.linkDown, exec_linkLoss hpow hup hlimit, rfl, fun hinternal => ?_, fun hrack => ?_⟩
    · refine (congrArg Host.Outcome.next ((if_pos hpow).trans (if_pos hinternal))).trans (Eq.trans ?_
        (congrArg Host.Outcome.next ((if_pos hpowered).trans (if_pos (by rw [hbase]; exact hinternal)))).symm)
      rw [State.internalPeriod_of_loss hup hlimit, hbase]
    · refine (congrArg Host.Outcome.next ((if_pos hpow).trans (if_neg (by rw [hrack]; nofun)))).trans (Eq.trans ?_
        (congrArg Host.Outcome.next ((if_pos hpowered).trans (if_neg (by rw [hbase, hrack]; nofun)))).symm)
      unfold State.timeoutUs
      rw [State.internalPeriod_of_loss hup hlimit, hbase, hlast]

end Sys2Proof.Machine
end

section
/-! PROOFS. A rack frame: the checks of R1, the windows cut short before it, its levels, its segment and the frames that its
period event emits (R1, R4, R5, R9, R11, R15, R21). -/

namespace Sys2Proof.Machine

/-! ## The checks of R1 -/

theorem SegmentKind.ofCode_isSome {n : Nat} : (∃ k, SegmentKind.ofCode n = some k) ↔ n ≤ 4 := by
  unfold SegmentKind.ofCode
  split_ifs with h0 h1 h2 h3 h4
  · exact ⟨fun _ => by omega, fun _ => ⟨_, rfl⟩⟩
  · exact ⟨fun _ => by omega, fun _ => ⟨_, rfl⟩⟩
  · exact ⟨fun _ => by omega, fun _ => ⟨_, rfl⟩⟩
  · exact ⟨fun _ => by omega, fun _ => ⟨_, rfl⟩⟩
  · exact ⟨fun _ => by omega, fun _ => ⟨_, rfl⟩⟩
  · exact ⟨nofun, fun _ => by omega⟩

theorem SegmentKind.ofCode_none {n : Nat} {k : SegmentKind} (h : SegmentKind.ofCode n = some k) : k = .none ↔ n = 0 := by
  unfold SegmentKind.ofCode at h
  split_ifs at h with h0 h1 h2 h3 h4 <;> cases h <;> simp [h0]

/-- The frame that the bytes spell, its kind given. -/
def DownFrame.read (f : List Byte) (kind : SegmentKind) : DownFrame :=
  { number := f.getD 2 0, commands := (f.drop 3).take 8, kind := kind, segment := (f.drop 13).take (byteAt f 12) }

/-- The checks that the bytes decide, and the spacing (R1). -/
theorem State.passesChecks_iff {s : State} {f : List Byte} : s.passesChecks s.nowUs f ↔
    (∃ k, SegmentKind.ofCode (byteAt f 11) = some k ∧ parseDownFrame f = some (DownFrame.read f k)) ∧ s.spacingOk = true := by
  have hspacing : s.spacingOk = true ↔
      ∀ l, s.rack.last = some l → s.timebase.periodMs * 1000 ≤ 2 * (s.nowUs - l.atUs) := by
    unfold State.spacingOk
    cases s.rack.last with
    | none => exact ⟨fun _ => nofun, fun _ => rfl⟩
    | some l => exact decide_eq_true_iff.trans ⟨fun h k hk => by cases hk; exact h, fun h => h l rfl⟩
  have hcheck : f.length = 15 + byteAt f 12 → slice f (13 + byteAt f 12) 2 = f.drop (13 + byteAt f 12) := fun h =>
    List.take_of_length_le (by rw [List.length_drop]; omega)
  unfold State.passesChecks parseDownFrame
  rw [hspacing]
  constructor
  · rintro ⟨hmark, hcode, hlen, hzero, hlength, hcrc, hlast⟩
    obtain ⟨k, hk⟩ := SegmentKind.ofCode_isSome.2 hcode
    refine ⟨⟨k, hk, ?_⟩, hlast⟩
    rw [if_pos hmark, hk]
    exact if_pos ⟨hlen, fun h => hzero ((SegmentKind.ofCode_none hk).1 h), hlength, by rw [hcheck hlength, ← hcrc]; rfl⟩
  · rintro ⟨⟨k, hk, hparse⟩, hlast⟩
    rw [hk] at hparse
    by_cases hmark : f.take 2 = [0xD2, 0x4B]
    · rw [if_pos hmark] at hparse
      dsimp only at hparse
      split_ifs at hparse with hall
      obtain ⟨hlen, hzero, hlength, hcrc⟩ := hall
      rw [hcheck hlength] at hcrc
      exact ⟨hmark, SegmentKind.ofCode_isSome.1 ⟨k, hk⟩, hlen, fun h => hzero ((SegmentKind.ofCode_none hk).2 h), hlength,
        hcrc, hlast⟩
    · rw [if_neg hmark] at hparse
      cases hparse

/-- What the bytes spell is the frame read with its own kind. -/
theorem parseDownFrame_read {f : List Byte} {g : DownFrame} (h : parseDownFrame f = some g) :
    ∃ k, SegmentKind.ofCode (byteAt f 11) = some k ∧ g = DownFrame.read f k := by
  unfold parseDownFrame at h
  split_ifs at h with hmark
  cases hk : SegmentKind.ofCode (byteAt f 11) with
  | none =>
    rw [hk] at h
    cases h
  | some k =>
    rw [hk] at h
    dsimp only at h
    split_ifs at h with hall
    cases h
    exact ⟨k, rfl, rfl⟩

theorem State.receiveFrame_of_passes {s : State} {f : List Byte} (h : s.passesChecks s.nowUs f) :
    ∃ k, SegmentKind.ofCode (byteAt f 11) = some k ∧ s.receiveFrame f = s.acceptFrame (DownFrame.read f k) := by
  obtain ⟨⟨k, hk, hparse⟩, hspacing⟩ := State.passesChecks_iff.1 h
  refine ⟨k, hk, ?_⟩
  unfold State.receiveFrame
  rw [hparse]
  exact if_pos hspacing

theorem State.receiveFrame_of_fails {s : State} {f : List Byte} (h : ¬ s.passesChecks s.nowUs f) :
    s.receiveFrame f = s.discardFrame := by
  unfold State.receiveFrame
  cases hparse : parseDownFrame f with
  | none => rfl
  | some g =>
    obtain ⟨k, hk, rfl⟩ := parseDownFrame_read hparse
    exact if_neg fun hspacing => h (State.passesChecks_iff.2 ⟨⟨k, hk, hparse⟩, hspacing⟩)

/-! ## The levels of an arm (R4, R91 to R93) -/

theorem Arm.permissiveLost_ne_running (x : Arm) (code : Sense) (c : EndCause) : (x.permissiveLost code c).state ≠ .running := by
  by_cases hp : x.state = .startPending
  · rw [Arm.permissiveLost_pending hp]
    nofun
  · obtain ⟨hflowing, hclosing, hrest⟩ := Arm.permissiveLost_takes hp code c
    by_cases hf : x.state.flowing
    · rw [(hflowing hf).1]
      nofun
    · by_cases hc : x.state = .closing
      · have hstate : (x.permissiveLost code c).state = x.state := by
          rw [hclosing hc]
          split_ifs <;> rfl
        rw [hstate, hc]
        nofun
      · rw [hrest hf hc]
        exact fun h => hf (.inl h)

/-- The arm's RUN_PERMIT handled, its HOLD not yet (R4). -/
def State.runChanged (s : State) (a : Fin 8) (old new : Levels) : State :=
  if old.runPermit && !new.runPermit then s.runPermitDropped a new.dropCause else s

theorem State.levelsChanged_eq {s : State} {a : Fin 8} {old new : Levels} (h : s.rack.levels[a] = new) : s.levelsChanged a old =
    if old.hold = new.hold then s.runChanged a old new else (s.runChanged a old new).holdChanged a new.hold := by
  unfold State.levelsChanged
  dsimp only
  rw [h]
  by_cases hsame : old.hold = new.hold
  · rw [if_pos hsame, hsame, bne_self_eq_false]
    rfl
  · rw [if_neg hsame, if_pos (bne_iff_ne.2 hsame)]
    rfl

/-- RUN_PERMIT dropped by the rack: a HOLD that changes with it has no effect (R93). -/
theorem State.levelsChanged_dropped {s : State} {a : Fin 8} {old new : Levels} (h : s.rack.levels[a] = new)
    (hold : old.runPermit = true) (hnew : new.runPermit = false) (hcause : new.dropCause = .rack) :
    s.levelsChanged a old = s.permissiveLost a .runPermitAbsent .rackEnd := by
  have hdrop : s.runChanged a old new = s.permissiveLost a .runPermitAbsent .rackEnd := by
    unfold State.runChanged
    rw [hold, hnew, State.runPermitDropped_eq, hcause]
    rfl
  rw [State.levelsChanged_eq h, hdrop]
  have hquiet : ∀ b, (s.permissiveLost a .runPermitAbsent .rackEnd).holdChanged a b =
      s.permissiveLost a .runPermitAbsent .rackEnd := by
    intro b
    cases b with
    | true =>
      refine (if_pos rfl).trans (if_neg ?_)
      rw [State.permissiveLost_arm, if_pos rfl]
      exact Arm.permissiveLost_ne_running _ _ _
    | false =>
      refine (if_neg nofun).trans (State.tryResume_of_absent ?_)
      rw [(State.BatchOnly.permissiveLost s a .runPermitAbsent .rackEnd).eq]
      exact (congrArg Levels.runPermit h).trans hnew
  split_ifs
  · rfl
  · exact hquiet _

/-- RUN_PERMIT not dropped: HOLD alone acts (R91, R92). -/
theorem State.levelsChanged_held {s : State} {a : Fin 8} {old new : Levels} (h : s.rack.levels[a] = new)
    (hkept : ¬ (old.runPermit = true ∧ new.runPermit = false)) :
    s.levelsChanged a old = if old.hold = new.hold then s else s.holdChanged a new.hold := by
  have hrun : s.runChanged a old new = s := if_neg fun hd => hkept (by simpa using hd)
  rw [State.levelsChanged_eq h, hrun]

theorem StartWindow.without_pending (w : StartWindow) (a b : Fin 8) (h : b ∈ (w.without a).pending) :
    b ∈ w.pending ∧ b ≠ a := by
  unfold StartWindow.without at h
  dsimp only at h
  split_ifs at h
  · cases h
  · have := List.mem_filter.1 h
    exact ⟨this.1, by simpa using this.2⟩

theorem State.holdChanged_windows (s : State) (a : Fin 8) (b : Bool) : (s.holdChanged a b).windows = s.windows := by
  unfold State.holdChanged State.tryResume
  split_ifs <;> rfl

/-- A change of levels puts no arm into a window (R86, R93). -/
theorem State.levelsChanged_pending (s : State) (a b : Fin 8) (old : Levels) (l : Fin 4)
    (h : b ∈ (s.levelsChanged a old).windows[l].pending) : b ∈ s.windows[l].pending := by
  have hdropped : ∀ cause, b ∈ (s.runPermitDropped a cause).windows[l].pending → b ∈ s.windows[l].pending := fun cause h => by
    unfold State.runPermitDropped State.returnPending State.leaveWindow at h
    split_ifs at h
    · cases hctx : (s.arm a).ctx with
      | none =>
        rw [hctx] at h
        exact h
      | some c =>
        rw [hctx] at h
        change b ∈ (s.windows.set c.settings.lane _)[l].pending at h
        by_cases hl : c.settings.lane = l
        · subst hl
          rw [get_set_self] at h
          exact (StartWindow.without_pending _ _ _ h).1
        · rwa [get_set_ne _ _ _ _ hl] at h
    · exact h
  have hwindows : (s.levelsChanged a old).windows = (s.runChanged a old s.rack.levels[a]).windows := by
    rw [State.levelsChanged_eq rfl]
    split_ifs
    · rfl
    · exact State.holdChanged_windows _ _ _
  rw [hwindows] at h
  by_cases hd : (old.runPermit && !s.rack.levels[a].runPermit) = true
  · rw [State.runChanged, if_pos hd] at h
    exact hdropped _ h
  · rwa [State.runChanged, if_neg hd] at h

end Sys2Proof.Machine
end

section
/-! PROOFS. The segment of a rack frame leaves the frame's own bookkeeping; what an accepted frame comes to (R1, R4, R11). -/

namespace Sys2Proof.Machine

/-! ## What a request leaves of the frame that carries it -/

/-- The supply, the moment, the lines, the timebase, the levels, the link's own count and the frame counter are kept. -/
structure RequestSide (s t : State) : Prop where
  powered : t.powered = s.powered
  nowUs : t.nowUs = s.nowUs
  lines : t.lines = s.lines
  timebase : t.timebase = s.timebase
  pending : t.pending = s.pending
  up : t.rack.up = s.rack.up
  silence : t.rack.silence = s.rack.silence
  last : t.rack.last = s.rack.last
  levels : t.rack.levels = s.rack.levels
  frameCounter : t.trunk.frameCounter = s.trunk.frameCounter

theorem RackLink.checkGap_cases (r : RackLink) (n : Byte) : r.checkGap n = r ∨ r.checkGap n = r.breakAssembly := by
  unfold RackLink.checkGap
  split
  · exact .inl rfl
  · split_ifs
    · exact .inl rfl
    · exact .inr rfl

namespace RequestSide

theorem refl (s : State) : RequestSide s s := ⟨rfl, rfl, rfl, rfl, rfl, rfl, rfl, rfl, rfl, rfl⟩

theorem trans {s t u : State} (h : RequestSide s t) (k : RequestSide t u) : RequestSide s u :=
  ⟨k.powered.trans h.powered, k.nowUs.trans h.nowUs, k.lines.trans h.lines, k.timebase.trans h.timebase,
   k.pending.trans h.pending, k.up.trans h.up, k.silence.trans h.silence, k.last.trans h.last, k.levels.trans h.levels,
   k.frameCounter.trans h.frameCounter⟩

theorem of_field {s t : State} (h : FieldSide s t) : RequestSide s t :=
  ⟨h.powered, h.nowUs, h.lines, h.timebase, h.pending, by rw [h.rack], by rw [h.rack], by rw [h.rack], by rw [h.rack],
   by rw [h.trunk]⟩

theorem raiseMetro (s : State) : RequestSide s s.raiseMetro := ⟨rfl, rfl, rfl, rfl, rfl, rfl, rfl, rfl, rfl, rfl⟩

theorem modStore (s : State) (f : StoreCtl → StoreCtl) : RequestSide s (s.modStore f) :=
  ⟨rfl, rfl, rfl, rfl, rfl, rfl, rfl, rfl, rfl, rfl⟩

theorem joinQueue (s : State) (op : QueuedOp) : RequestSide s (s.joinQueue op) := by
  unfold State.joinQueue
  split
  · exact .modStore s _
  · exact .modStore s _

theorem fixResponse (s : State) (code : Nat) (refused : Bool) (sense : Sense) (truncated : Bool) (p : List Byte)
    (reset : Bool) : RequestSide s (s.modRack (fun r => r.fixResponse code refused sense truncated p reset)) :=
  ⟨rfl, rfl, rfl, rfl, rfl, rfl, rfl, rfl, rfl, rfl⟩

theorem noteDevice (s : State) (c : Sense) : RequestSide s (s.noteDevice c) :=
  ⟨rfl, rfl, rfl, rfl, rfl, rfl, rfl, rfl, rfl, rfl⟩

theorem refuse (s : State) (code arm : Nat) (c : Sense) : RequestSide s (s.refuse code arm c) := by
  obtain ⟨a, h⟩ | h := s.refuse_cases code arm c
  · rw [h]
    exact (of_field (.modArm s a _)).trans (.fixResponse _ _ _ _ _ _ _)
  · rw [h]
    exact (noteDevice s c).trans (.fixResponse _ _ _ _ _ _ _)

theorem rebaseMeters (s : State) (c : Content) : RequestSide s (s.rebaseMeters c) := by
  rw [State.rebaseMeters_eq]
  exact ⟨rfl, rfl, rfl, rfl, rfl, rfl, rfl, rfl, rfl, rfl⟩

theorem acceptStore (s : State) (c : Content) : RequestSide s (s.acceptStore c) := by
  have htables : ∀ t : State, ∀ b, RequestSide t { t with tables := t.tables.write b c } := fun _ _ =>
    ⟨rfl, rfl, rfl, rfl, rfl, rfl, rfl, rfl, rfl, rfl⟩
  have hworking : RequestSide s (s.writeWorking c) := by
    unfold State.writeWorking
    dsimp only
    split_ifs
    · exact ((rebaseMeters s c).trans (htables _ _)).trans (.raiseMetro _)
    · exact (rebaseMeters s c).trans (htables _ _)
  unfold State.acceptStore
  split_ifs
  · exact (hworking.trans (.modStore _ _)).trans (.joinQueue _ _)
  · exact hworking

theorem accepts {s t : State} (h : Accepts s t) : RequestSide s t := by
  cases h with
  | nothing => exact .refl s
  | clearSense arm =>
    unfold State.clearSense
    split
    · exact of_field (.modArm s _ _)
    · exact .noteDevice s _
  | authorize => exact of_field (.modArm s _ _)
  | start =>
    unfold State.startArm
    split_ifs
    · exact of_field ((FieldSide.setWindow s _ _).trans (.modArm _ _ _))
    · exact of_field (.modArm s _ _)
  | @cancel _ a h =>
    obtain ⟨-, rfl⟩ | ⟨-, rfl⟩ := State.cancelArm_cases h
    · exact of_field (.modArm s _ _)
    · exact of_field ((FieldSide.leaveWindow s a).trans (.modArm _ a _))
  | @clearFault _ a h =>
    unfold State.clearArm at h
    split_ifs at h
    cases h
    exact of_field (.modArm s _ _)
  | counters => exact ⟨rfl, rfl, rfl, rfl, rfl, rfl, rfl, rfl, rfl, rfl⟩
  | test => exact ⟨rfl, rfl, rfl, rfl, rfl, rfl, rfl, rfl, rfl, rfl⟩
  | latch => exact .modStore s _
  | store => exact .acceptStore s _

theorem answers {s t : State} (h : Answers s t) : RequestSide s t := by
  cases h with
  | accepted h code payload reset prepare =>
    exact ((accepts h).trans (.fixResponse _ _ _ _ _ _ _)).trans (.modStore _ _)
  | refused code arm c prepare => exact (refuse s code arm c).trans (.modStore _ _)
  | @service a p i write meterWrite h q code prepare =>
    refine RequestSide.trans ?_ (.modStore _ _)
    have hset : RequestSide s (s.setTransfer a (Transfer.accepted i write q)) :=
      ⟨rfl, rfl, rfl, rfl, rfl, rfl, rfl, rfl, rfl, rfl⟩
    have hheld : ∀ t : State, RequestSide t (t.modRack (fun r => { r with transaction := .held a })) := fun _ =>
      ⟨rfl, rfl, rfl, rfl, rfl, rfl, rfl, rfl, rfl, rfl⟩
    unfold State.acceptService
    dsimp only
    split_ifs
    · exact (hset.trans (.raiseMetro _)).trans (hheld _)
    · exact hset.trans (hheld _)

theorem completeRequest (s : State) (bytes : List Byte) (n : Nat) : RequestSide s (s.completeRequest bytes n) := by
  unfold State.completeRequest
  split
  · unfold State.submit
    split_ifs
    · exact answers (.serve s _ _ _ _)
    · exact answers (.refused s _ _ _ _)
  · exact answers (.refused s _ _ _ _)

theorem takeSegment (s : State) (f : DownFrame) : RequestSide s (s.takeSegment f) := by
  have hlink : ∀ (t : State) (g : RackLink → RackLink), (g t.rack).up = t.rack.up → (g t.rack).silence = t.rack.silence →
      (g t.rack).last = t.rack.last → (g t.rack).levels = t.rack.levels → RequestSide t (t.modRack g) :=
    fun _ _ hu hs hl hv => ⟨rfl, rfl, rfl, rfl, rfl, hu, hs, hl, hv, rfl⟩
  unfold State.takeSegment
  split_ifs
  · have hgap : RequestSide s (s.modRack (fun r => r.checkGap f.number)) := by
      obtain h | h := s.rack.checkGap_cases f.number
      · exact hlink s (fun r => r.checkGap f.number) (by rw [h]) (by rw [h]) (by rw [h]) (by rw [h])
      · exact hlink s (fun r => r.checkGap f.number) (by rw [h]; rfl) (by rw [h]; rfl) (by rw [h]; rfl) (by rw [h]; rfl)
    refine hgap.trans ?_
    generalize s.modRack (fun r => r.checkGap f.number) = u
    unfold State.assemble
    split
    · exact .refl u
    · exact hlink u _ rfl rfl rfl rfl
    · exact hlink u _ rfl rfl rfl rfl
    · exact hlink u _ rfl rfl rfl rfl
    · exact hlink u _ rfl rfl rfl rfl
    · exact hlink u _ rfl rfl rfl rfl
    · exact hlink u _ rfl rfl rfl rfl
    · exact (hlink u _ rfl rfl rfl rfl).trans (.completeRequest _ _ _)
    · exact .completeRequest u _ _
    · exact (hlink u RackLink.breakAssembly rfl rfl rfl rfl).trans (.completeRequest _ _ _)
  · exact .refl s
  · exact hlink s _ rfl rfl rfl rfl

end RequestSide


/-! ## An accepted frame -/

/-- The moment of a frame accepted some time after the present one (R1, R5, R9). -/
def State.acceptedAt (s : State) (us : Nat) (number : Byte) : Moment :=
  { nowUs := s.nowUs + us, up := true, silence := 0, last := some { number := number, atUs := s.nowUs + us },
      internal := false }

/-- The state that sends the frames of an accepted frame's event: windows closed, levels and segment taken (R21). -/
def State.frameTaken (s : State) (us : Nat) (g : DownFrame) : State :=
  (((s.moved (s.acceptedAt us g.number)).cutWindows 65).takeLevels g).takeSegment g

theorem State.acceptFrame_eq (s : State) (us : Nat) (g : DownFrame) :
    ({ s with nowUs := s.nowUs + us } : State).acceptFrame g = (s.frameTaken us g).sendFrames := rfl

theorem exec_rackFrameReceived_accepted {s : State} {us : Nat} {f : List Byte} (hpow : s.powered = true)
    (h : s.passesChecks (s.nowUs + us) f) : ∃ k, SegmentKind.ofCode (byteAt f 11) = some k ∧
      exec (.rackFrameReceived us f) s = .next (s.frameTaken us (DownFrame.read f k)).sendFrames := by
  obtain ⟨k, hk, hreceive⟩ := State.receiveFrame_of_passes (s := { s with nowUs := s.nowUs + us }) (by exact h)
  exact ⟨k, hk, congrArg Host.Outcome.next ((if_pos hpow).trans (hreceive.trans (s.acceptFrame_eq us _)))⟩

/-- The frame's own bookkeeping when its event's frames are sent. -/
theorem State.frameTaken_kept (s : State) (us : Nat) (g : DownFrame) :
    let c := s.frameTaken us g
    c.powered = s.powered ∧ c.nowUs = s.nowUs + us ∧ c.lines = s.lines ∧ c.pending = s.pending ∧
    c.timebase = { s.timebase with internal := false } ∧ c.rack.up = true ∧ c.rack.silence = 0 ∧
    c.rack.last = some { number := g.number, atUs := s.nowUs + us } ∧ c.trunk.frameCounter = s.trunk.frameCounter ∧
    ∀ a : Fin 8, c.rack.levels[a] = s.rack.levels[a].update (commandRunPermit g a) (commandHold g a) := by
  have hcut := TrunkSide.cutWindows 65 (s.moved (s.acceptedAt us g.number))
  have hcounter := State.cutWindows_frameCounter 65 (s.moved (s.acceptedAt us g.number))
  unfold State.frameTaken
  generalize (s.moved (s.acceptedAt us g.number)).cutWindows 65 = c at hcut hcounter ⊢
  have hlevels := FieldSide.setLevels c (Vector.ofFn (fun a => c.rack.levels[a].update (commandRunPermit g a) (commandHold g a)))
  have htaken := RequestSide.takeSegment (c.takeLevels g) g
  refine ⟨(htaken.powered.trans hlevels.powered).trans hcut.powered, (htaken.nowUs.trans hlevels.nowUs).trans hcut.nowUs,
    (htaken.lines.trans hlevels.lines).trans hcut.lines, (htaken.pending.trans hlevels.pending).trans hcut.pending,
    (htaken.timebase.trans hlevels.timebase).trans hcut.timebase,
    (htaken.up.trans (congrArg RackLink.up hlevels.rack)).trans (congrArg RackLink.up hcut.rack :),
    (htaken.silence.trans (congrArg RackLink.silence hlevels.rack)).trans (congrArg RackLink.silence hcut.rack :),
    (htaken.last.trans (congrArg RackLink.last hlevels.rack)).trans (congrArg RackLink.last hcut.rack :),
    (htaken.frameCounter.trans (congrArg Trunk.frameCounter hlevels.trunk)).trans hcounter, fun a => ?_⟩
  have hheld : c.rack.levels = s.rack.levels := (congrArg RackLink.levels hcut.rack :)
  have hset : (c.takeLevels g).rack.levels = _ := congrArg RackLink.levels hlevels.rack
  rw [htaken.levels, hset]
  refine (Vector.getElem_ofFn a.isLt).trans ?_
  rw [hheld]

/-- The windows that the event cuts short may as well close before the frame (R21). -/
theorem State.frameTaken_closeWindow {s : State} (hopen : s.trunk.answering = true) (us : Nat) (g : DownFrame) :
    (s.closeWindow []).frameTaken us g = s.frameTaken us g := by
  have hnow : (s.closeWindow []).nowUs = s.nowUs := (TrunkSide.closeWindow s []).nowUs
  have hmoment : (s.closeWindow []).acceptedAt us g.number = s.acceptedAt us g.number := by
    unfold State.acceptedAt
    rw [hnow]
  unfold State.frameTaken
  rw [hmoment]
  generalize s.acceptedAt us g.number = m
  have hstep : (s.moved m).cutWindows 65 = ((s.moved m).closeWindow []).cutWindows 64 := if_pos (by exact hopen)
  have henough := (State.cutWindows_enough 64 ((s.closeWindow []).moved m) fun hstill => by
    rcases (State.closeWindow_windows hopen).2 with hclosed | ⟨-, hnext⟩
    · rw [show ((s.closeWindow []).moved m).trunk.answering = (s.closeWindow []).trunk.answering from rfl, hclosed] at hstill
      cases hstill
    · rw [show ((s.closeWindow []).moved m).trunk.nextWindow = (s.closeWindow []).trunk.nextWindow from rfl, hnext]
      omega).2
  rw [hstep, State.moved_closeWindow, ← henough]

/-! ## The arms at a frame without a request -/

theorem State.takeSegment_none {g : DownFrame} (h : g.kind = .none) (s : State) :
    ∃ r, s.takeSegment g = { s with rack := r } := by
  unfold State.takeSegment State.assemble
  split_ifs
  · rw [h]
    cases (s.modRack (fun r => r.checkGap g.number)).rack.assembly <;> exact ⟨_, rfl⟩
  · exact ⟨s.rack, rfl⟩


theorem State.sendFrames_windows (s : State) : s.sendFrames.windows = s.reassigned.windows := by
  unfold State.sendFrames
  rw [State.emitFrame_eq]
  generalize s.reassigned = v
  rfl

/-- The arms and the windows after the frames of an event that finds no window open and changes no assignment. -/
theorem State.sendFrames_of_still {s : State} (h : s.Still) :
    s.sendFrames.arms = s.arms ∧ s.sendFrames.windows = s.windows := by
  have hsame : s.reassigned = s.adopted := State.reassigned_of_same h.2.1 h.2.2
  refine ⟨(State.sendFrames_parts s).1.trans ?_, s.sendFrames_windows.trans ?_⟩
  · rw [hsame]
    rfl
  · rw [hsame]
    rfl

/-- An arm after new levels: its own step, with the new levels held (R4). -/
theorem State.setLevels_arm (s : State) (levels : Vector Levels 8) (a : Fin 8) : ∃ u : State,
    u.rack.levels[a] = levels[a] ∧ u.lines = s.lines ∧ u.arm a = s.arm a ∧
    (s.setLevels levels).arm a = (u.levelsChanged a s.rack.levels[a]).arm a := by
  obtain ⟨before, hheld, hown⟩ := foldl_arm_at
    (f := fun t b => t.levelsChanged b s.rack.levels[b]) (fun t b c h => t.levelsChanged_arm_ne _ h) allArms_nodup
    (s.modRack (fun r => { r with levels := levels })) (mem_allArms a)
  have hside := FieldSide.foldl (fun t b => t.levelsChanged b s.rack.levels[b]) (fun t b => .levelsChanged t b _) before
    (s.modRack (fun r => { r with levels := levels }))
  exact ⟨_, by rw [hside.rack]; rfl, hside.lines, hheld, hown⟩

/-- A pending arm whose RUN_PERMIT drops is in no window's set of its lane (R86). -/
theorem State.setLevels_leaves {s : State} {levels : Vector Levels 8} {a : Fin 8} {c : Context}
    (hpending : (s.arm a).state = .startPending) (hctx : (s.arm a).ctx = some c)
    (hold : s.rack.levels[a].runPermit = true) (hnew : levels[a].runPermit = false) (hcause : levels[a].dropCause = .rack) :
    a ∉ (s.setLevels levels).windows[c.settings.lane].pending := by
  refine foldl_reaches (f := fun t b => t.levelsChanged b s.rack.levels[b]) (i := a)
    (P := fun t => t.arm a = s.arm a ∧ t.rack.levels = levels) (Q := fun t => a ∉ t.windows[c.settings.lane].pending)
    (fun t b hb h => ⟨?_, ?_⟩) (fun t h => ?_) (fun t b h hmem => h (t.levelsChanged_pending b a _ _ hmem)) allArms_nodup
    (mem_allArms a) (s := s.modRack (fun r => { r with levels := levels })) ⟨rfl, rfl⟩
  · exact (t.levelsChanged_arm_ne _ (Ne.symm hb)).trans h.1
  · rw [(FieldSide.levelsChanged t b s.rack.levels[b]).rack]
    exact h.2
  · obtain ⟨harm, hlevels⟩ := h
    rw [State.levelsChanged_dropped (new := levels[a]) (by rw [hlevels]) hold hnew hcause]
    unfold State.permissiveLost State.returnPending State.leaveWindow
    rw [harm, if_pos hpending, hctx]
    show a ∉ (t.windows.set c.settings.lane (t.windows[c.settings.lane].without a))[c.settings.lane].pending
    rw [get_set_self]
    exact fun hmem => (StartWindow.without_pending _ _ _ hmem).2 rfl

/-- The arm and its windows at the close of a frame's event without a request, a window or a change of assignment. -/
theorem State.frameTaken_of_still {s : State} (hstill : s.Still) {us : Nat} {g : DownFrame} (hkind : g.kind = .none) :
    let levels := Vector.ofFn (fun a : Fin 8 => s.rack.levels[a].update (commandRunPermit g a) (commandHold g a))
    (s.frameTaken us g).sendFrames.arms = (s.setLevels levels).arms ∧
    (s.frameTaken us g).sendFrames.windows = (s.setLevels levels).windows := by
  intro levels
  have hclosed : (s.moved (s.acceptedAt us g.number)).cutWindows 65 = s.moved (s.acceptedAt us g.number) :=
    State.cutWindows_of_closed (by exact hstill.1) 65
  obtain ⟨r, hr⟩ := State.takeSegment_none hkind ((s.setLevels levels).moved (s.acceptedAt us g.number))
  have htaken : s.frameTaken us g = { (s.setLevels levels).moved (s.acceptedAt us g.number) with rack := r } := by
    rw [← hr, State.frameTaken, hclosed, ← State.moved_setLevels]
    rfl
  have hside := FieldSide.setLevels s levels
  have hkept : (s.frameTaken us g).Still := by
    rw [htaken]
    refine ⟨?_, ?_, ?_⟩
    · show (s.setLevels levels).trunk.answering = false
      rw [hside.trunk]
      exact hstill.1
    · show (s.setLevels levels).trunk.slotCount = (s.setLevels levels).config.slotCount
      rw [hside.trunk, State.config, hside.tables]
      exact hstill.2.1
    · show (s.setLevels levels).trunk.table = (s.setLevels levels).slotTable
      rw [hside.trunk, State.slotTable, hside.tables]
      exact hstill.2.2
  obtain ⟨harms, hwindows⟩ := State.sendFrames_of_still hkept
  rw [harms, hwindows, htaken]
  exact ⟨rfl, rfl⟩

/-! ## Settling O23 -/

theorem commands_getD (f : List Byte) (k : SegmentKind) (a : Fin 8) :
    (DownFrame.read f k).commands.getD a.val 0 = f.getD (3 + a.val) 0 := by
  show ((f.drop 3).take 8).getD a.val 0 = _
  rw [List.getD_eq_getElem?_getD, List.getD_eq_getElem?_getD, List.getElem?_take_of_lt a.isLt, List.getElem?_drop]

/-- What the levels of a frame without a request do to an arm (R86, R91 to R93). -/
theorem State.levels_arm {s t : State} {a : Fin 8} {run hold : Bool} {levels : Vector Levels 8}
    {old : Levels} (hheld : s.rack.levels[a] = old) (hlevel : levels[a] = old.update run hold)
    (harms : t.arms = (s.setLevels levels).arms)
    (hwindows : t.windows = (s.setLevels levels).windows) :
    let x := s.arm a
    let dropped := old.runPermit = true ∧ run = false
    (dropped → x.state ≠ .startPending → x.Takes (t.arm a) .rackEnd) ∧
    (dropped → x.state = .startPending →
      t.arm a = { x with state := .authorized, sense := .runPermitAbsent } ∧
      ∀ c, x.ctx = some c → a ∉ t.windows[c.settings.lane].pending) ∧
    (¬ dropped → old.hold = false → hold = true →
      (x.state = .running → t.arm a = x.enterHolding) ∧ (x.state ≠ .running → t.arm a = x)) ∧
    (¬ dropped → old.hold = true → hold = false →
      (∀ c, x.state = .held → run = true → s.lines.permit[a] = true → s.lines.estop = false → x.ctx = some c →
        t.arm a = x.resumed) ∧
      (x.state ≠ .held ∨ run = false ∨ s.lines.permit[a] = false ∨ s.lines.estop = true → t.arm a = x)) ∧
    (¬ dropped → old.hold = hold → t.arm a = x) := by
  intro x dropped
  obtain ⟨u, hu, hlines, hx, harm⟩ := s.setLevels_arm levels a
  rw [← show t.arm a = (s.setLevels levels).arm a from congrArg (fun v : Vector Arm 8 => v[a]) harms] at harm
  rw [hlevel] at hu
  rw [hheld] at harm
  have hcause : dropped → (old.update run hold).dropCause = .rack := fun ⟨hset, hclear⟩ => if_pos (by rw [hset, hclear]; rfl)
  have hdropped : dropped → t.arm a = x.permissiveLost .runPermitAbsent .rackEnd := fun hd => by
    rw [harm, State.levelsChanged_dropped hu hd.1 hd.2 (hcause hd), State.permissiveLost_arm, if_pos rfl, hx]
  have hkept : ¬ dropped → t.arm a = if old.hold = hold then x else (u.holdChanged a hold).arm a := fun hd => by
    rw [harm, State.levelsChanged_held hu (by exact hd)]
    show State.arm (if old.hold = hold then u else u.holdChanged a hold) a = _
    rw [apply_ite (fun v : State => v.arm a), hx]
  refine ⟨fun hd hp => ?_, fun hd hp => ⟨?_, fun c hc => ?_⟩, fun hd hclear hset => ?_, fun hd hset hclear => ?_,
      fun hd hsame => ?_⟩
  · rw [hdropped hd]
    exact Arm.permissiveLost_takes hp _ _
  · rw [hdropped hd, Arm.permissiveLost_pending hp]
  · rw [hwindows]
    exact State.setLevels_leaves hp hc (by rw [hheld]; exact hd.1) (by rw [hlevel]; exact hd.2) (by rw [hlevel]; exact hcause hd)
  · rw [hkept hd, hclear, hset, if_neg nofun]
    unfold State.holdChanged
    rw [if_pos rfl, apply_ite (fun v : State => v.arm a), State.arm_modArm_self, hx]
    exact ⟨fun h => if_pos h, fun h => if_neg h⟩
  · have hresume : u.mayResume a = true ↔ run = true ∧ s.lines.permit[a] = true ∧ s.lines.estop = false := by
      rw [State.mayResume_iff, hu, hlines]
      exact ⟨fun h => h.2, fun h => ⟨hclear, h⟩⟩
    rw [hkept hd, hset, hclear, if_neg nofun]
    unfold State.holdChanged State.tryResume
    rw [if_neg nofun, apply_ite (fun v : State => v.arm a), State.arm_modArm_self, hx]
    refine ⟨fun c hstate hrun hpermit hestop _ => if_pos ⟨hstate, hresume.2 ⟨hrun, hpermit, hestop⟩⟩, fun hno => if_neg ?_⟩
    rintro ⟨hstate, hmay⟩
    obtain ⟨hrun, hpermit, hestop⟩ := hresume.1 hmay
    rcases hno with h | h | h | h
    · exact h hstate
    · rw [hrun] at h
      cases h
    · rw [hpermit] at h
      cases h
    · rw [hestop] at h
      cases h
  · rw [hkept hd, if_pos hsame]

/-- Settles O23: a discarded frame by `State.discardFrame`; an accepted one by the state that sends its frames. -/
theorem framesDecided : Obligations.FramesDecided := by
  refine fun s us f hpow => ⟨fun hfails => ?_, fun hpasses => ?_⟩
  · have hreceive := State.receiveFrame_of_fails (s := { s with nowUs := s.nowUs + us }) (by exact hfails)
    refine congrArg Host.Outcome.next ((if_pos hpow).trans (hreceive.trans ?_))
    have hbroken : s.rack.breakIfOpen =
        { s.rack with assembly := none, discard := s.rack.discard || s.rack.assembly.isSome } := by
      unfold RackLink.breakIfOpen
      cases hassembly : s.rack.assembly with
      | none =>
        rw [if_pos rfl, Option.isSome_none, Bool.or_false, ← hassembly]
      | some b =>
        rw [if_neg nofun, Option.isSome_some, Bool.or_true]
        rfl
    unfold State.discardFrame State.modRack
    dsimp only
    rw [hbroken]
    rfl
  · obtain ⟨k, hk, hexec⟩ := exec_rackFrameReceived_accepted hpow hpasses
    have hsent := (s.frameTaken us (DownFrame.read f k)).sendFrames_sent
    obtain ⟨hpowered, hnow, hlines, hpending, hbase, hup, hsilence, hlast, hcounter, hlevels⟩ :=
      s.frameTaken_kept us (DownFrame.read f k)
    have hstill := fun (h : s.Still) (hzero : byteAt f 11 = 0) => State.frameTaken_of_still h (us := us)
      (g := DownFrame.read f k) ((SegmentKind.ofCode_none hk).2 hzero)
    have hrun : ∀ a, commandRunPermit (DownFrame.read f k) a = (f.getD (3 + a.val) 0).getLsbD 0 := fun a => by
      unfold commandRunPermit
      rw [commands_getD]
    have hhold : ∀ a, commandHold (DownFrame.read f k) a = (f.getD (3 + a.val) 0).getLsbD 1 := fun a => by
      unfold commandHold
      rw [commands_getD]
    refine ⟨_, hexec, hsent.last.trans hlast, hsent.up.trans hup, hsent.silence.trans hsilence, ?_, ?_, hsent.nowUs.trans hnow,
      fun a => ?_, ?_, fun g hnumber hcommands hkind hsegment => ?_, fun hopen => ?_, ?_, ?_, ?_, ?_, ?_, ?_,
      hsent.lines.trans hlines, (hsent.powered.trans hpowered).trans hpow, hsent.pending.trans hpending,
      fun hzero hs a => ?_⟩
    · rw [hsent.timebase, hbase]
    · rw [hsent.timebase, hnow]
    · rw [hsent.levels, hlevels a, hrun, hhold]
      refine ⟨rfl, rfl, ?_⟩
      show (if (s.rack.levels[a].runPermit && !(f.getD (3 + a.val) 0).getLsbD 0) = true then _ else _) = _
      simp only [Bool.and_eq_true, Bool.not_eq_true']
    · rw [hsent.mark]
      unfold State.echo
      rw [hbase, hlast]
      rfl
    · have hg : g = DownFrame.read f k := by
        rw [hk] at hkind
        cases hkind
        unfold DownFrame.read
        rw [← hnumber, ← hcommands, ← hsegment]
      rw [hg]
      exact hsent.emitted
    · have hside := TrunkSide.closeWindow s []
      refine ⟨s.closeWindow [], congrArg Host.Outcome.next (if_pos hpow), ?_⟩
      obtain ⟨k', hk', hexec'⟩ := exec_rackFrameReceived_accepted (s := s.closeWindow []) (us := us) (f := f)
        (hside.powered.trans hpow) (by
          unfold State.passesChecks
          rw [hside.nowUs, hside.timebase, hside.rack]
          exact hpasses)
      rw [hk] at hk'
      cases hk'
      rw [hexec, hexec', State.frameTaken_closeWindow hopen]
    · rw [hsent.trunk]
      show nextFrame (s.frameTaken us (DownFrame.read f k)).trunk.frameCounter = _
      rw [hcounter]
      rfl
    · rw [hsent.trunk]
      rfl
    · rw [hsent.trunk]
      rfl
    · rw [hsent.trunk, State.config, hsent.tables]
      rfl
    · rw [hsent.trunk, State.slotTable, hsent.tables]
      rfl
    · rw [hsent.timebase, State.config, State.config, hsent.tables]
    · obtain ⟨harms, hwindows⟩ := hstill hs hzero
      have hacts := State.levels_arm (a := a) rfl (Vector.getElem_ofFn a.isLt) harms hwindows
      rw [hrun, hhold] at hacts
      obtain ⟨hcause, hreturn, hhold, hresume, hsame⟩ := hacts
      refine ⟨hcause, hreturn, hhold, fun hd hset hclear => ?_, hsame⟩
      obtain ⟨hgo, hstay⟩ := hresume hd hset hclear
      refine ⟨fun c hheld hr hpermit hestop hctx => ?_, hstay⟩
      rw [hgo c hheld hr hpermit hestop hctx, Arm.resumed_eq hctx]

end Sys2Proof.Machine
end
